-- ==== Sys2Proof/Word.lean ====
section
/-! DEFINITION. The widths of 00_scope R7, R11: a byte is 8 bits, wire integers are unsigned of 16 and 32 bits. -/

namespace Sys2Proof

/-- A byte (R7). -/
abbrev Byte := BitVec 8

/-- An unsigned 16-bit value: Version, PayloadLen, Length and the 16-bit counters. -/
abbrev U16 := BitVec 16

/-- An unsigned 32-bit value: DeviceID, the accumulator, a host register. -/
abbrev U32 := BitVec 32

end Sys2Proof
end

