-- ==== Sys2Proof/Config.lean ====
section
/-! DEFINITION. The implementation parameters of 00_scope R6: a structure that the parameterised step takes as an argument
(10_state R49), the constraints R6 puts on it, and this hardware's values (log 10). -/

namespace Sys2Proof

/-- The opaque cause code of an I/O failure as `in_data` carries it (R46, R132); `IOCODE_W` bits of it count (log 25). -/
abbrev IoCode := BitVec 8

/-- `STORE`, the capacity of the frame store (R6, D14): unbounded, or so many records of so many data bytes each (log 26). -/
inductive Store where
  | unbounded
  | bounded (records dataBytes : Nat)
deriving DecidableEq, Repr

/-- The four parameters of R6. -/
structure Params where
  /-- `BUFCAP`, the capacity of the look-ahead buffer; none is infinite (D4) -/
  bufcap : Option Nat
  /-- `PAYWIN`, the bytes the payload checkpoint asks for, from PayloadLen (D5) -/
  paywin : U16 → Nat
  /-- `IOCODE_W`, the width of the opaque cause code (D3) -/
  iocodeW : Nat
  /-- `STORE`, the capacity of the frame store (D14) -/
  store : Store

/-- The constraints of R6 on the parameters. -/
structure Params.Legal (P : Params) : Prop where
  bufcapHeader : ∀ c, P.bufcap = some c → 8 ≤ c
  bufcapPaywin : ∀ c p, P.bufcap = some c → P.paywin p ≤ c
  paywinZero : P.paywin 0 = 0
  paywinLe : ∀ p, P.paywin p ≤ 3 * p.toNat
  paywinTwo : P.paywin 2 ≤ 3
  iocodePos : 1 ≤ P.iocodeW
  storeHolds : ∀ r d, P.store = .bounded r d → 65535 ≤ r ∧ 65535 ≤ d

/-- This hardware's values: `BUFCAP = 8`, `PAYWIN(p) = min(p, 1)`, `IOCODE_W = 8`, `STORE` unbounded (R6). -/
def Config.hardware : Params where
  bufcap := some 8
  paywin := fun p => min p.toNat 1
  iocodeW := 8
  store := .unbounded

/-- The bytes of a header, what the header checkpoint asks for (R7, R134); no parameter. -/
def Config.headerBytes : Nat := 8

end Sys2Proof
end

