-- ==== Sys2Proof/Syntax.lean ====
section
/-! DEFINITION. The operations of opcode_table.json, one constructor of `Instr` per row, and the raw words that select
them (30_encoding R100, R105, R106, R107). -/

namespace Sys2Proof

/-- A field of a header or record (30_encoding R99; codes 6 and 7 cannot be written down, R101, U11). -/
inductive Fld where
  | version
  | deviceId
  | payloadLen
  | commandId
  | length
  | data
deriving DecidableEq, Repr

/-- The four formats of the opcode table (30_encoding R107). -/
inductive Format where
  | wire
  | step
  | beat
  | host
deriving DecidableEq, Repr

/-- One constructor per row of opcode_table.json. -/
inductive Instr where
  -- WIRE (R91, R92)
  | header (version : U16) (deviceId : U32) (payloadLen : U16)
  | headerVersion (version : U16)
  | headerDeviceId (deviceId : U32)
  | headerPayloadLen (payloadLen : U16)
  | record (commandId : Byte) (length : U16) (data : List Byte)
  | recordCommandId (commandId : Byte)
  | recordLength (length : U16)
  | recordData (data : List Byte)
  -- STEP (R100)
  | peekHdr
  | hdrVersion
  | hdrDeviceId
  | hdrPayloadLen
  | peekPay
  | assemble
  | recCommandId
  | recLength
  | recData
  | recCommit
  -- BEAT (R105)
  | srcData (b : Byte)
  | srcEos
  | srcErr (c : IoCode)
  | srcReserved
  -- HOST (R106, R224)
  | start (wdata : U32)
  | wrregRecSel (wdata : U32)
  | wrregRecOff (wdata : U32)
  | rdregCtrl
  | rdregStatus
  | rdregErr
  | rdregHdrVersion
  | rdregHdrDeviceId
  | rdregHdrPayloadLen
  | rdregRecCount
  | rdregRecSel
  | rdregRecCmd
  | rdregRecLen
  | rdregRecOff
  | rdregRecData
  | rdregReserved (num : BitVec 4)
  | reset
deriving DecidableEq, Repr

/-- Which wire item is read at the cursor; the Data item's size is the record's Length (R92, R97). -/
inductive WireKind where
  | header
  | headerVersion
  | headerDeviceId
  | headerPayloadLen
  | record
  | recordCommandId
  | recordLength
  | recordData (length : U16)
deriving DecidableEq, Repr

/-- What selects an operation, before decoding: wire bytes, PARSER's control word with the values its data guards
compare, a beat's pins, a host access' pins, or the `rst` pin (R100, R105, R106, R107). -/
inductive OpWord where
  | wire (kind : WireKind) (bytes : List Byte)
  | step (cw : BitVec 6) (ri plen cnt rlen : U16)
  | beat (kind : BitVec 2) (data : Byte)
  | host (we : Bool) (num : BitVec 4) (wdata : U32)
  | rst (level : Bool)
deriving DecidableEq, Repr

/-- Why a word selects no operation. -/
inductive Reject where
  /-- The bytes end before the wire item does. -/
  | truncated
  /-- `st` is IDLE, DONE or FAILED: PARSER has no step there (R100). -/
  | noParserStep
  /-- A control word no row of R100 matches (R101). -/
  | reservedControlWord
  /-- A control word a row matches, whose data guard fails in every such row (R100). -/
  | guardFails
  /-- A write to a register number other than 0, 7 and 10 (R223). -/
  | unlistedWrite
  /-- `rst` is low (R224). -/
  | resetLow
deriving DecidableEq, Repr

/-- The decoder's answer: an operation and the bytes after it (none but for wire items), or a rejection by name. -/
inductive Decoded where
  | ok (i : Instr) (rest : List Byte)
  | reject (r : Reject)
deriving DecidableEq, Repr

/-- The data guards of R100. -/
inductive Guard where
  | always
  | riEqPlen
  | riLtPlen
  | cntLtRlen
  | cntEqRlen
deriving DecidableEq, Repr

/-- One row of the step decode table R100. -/
structure StepRow where
  bits : BitVec 6
  mask : BitVec 6
  guard : Guard
  instr : Instr
deriving DecidableEq, Repr

end Sys2Proof
end

