-- ==== Sys2Proof/WellFormed.lean ====
section
/-! DEFINITION. What a term must satisfy to stand for words of its row. -/

namespace Sys2Proof

/-- A record's Length counts its Data (R92, R110); a Data item is at most 65535 bytes (R7); the reserved register numbers
are 12 to 15 (R106). Every other operand value is legal (R96). -/
def WellFormed : Instr → Bool
  | .header _ _ _ => true
  | .headerVersion _ => true
  | .headerDeviceId _ => true
  | .headerPayloadLen _ => true
  | .record _ l d => d.length == l.toNat
  | .recordCommandId _ => true
  | .recordLength _ => true
  | .recordData d => decide (d.length < 65536)
  | .peekHdr => true
  | .hdrVersion => true
  | .hdrDeviceId => true
  | .hdrPayloadLen => true
  | .peekPay => true
  | .assemble => true
  | .recCommandId => true
  | .recLength => true
  | .recData => true
  | .recCommit => true
  | .srcData _ => true
  | .srcEos => true
  | .srcErr _ => true
  | .srcReserved => true
  | .start _ => true
  | .wrregRecSel _ => true
  | .wrregRecOff _ => true
  | .rdregCtrl => true
  | .rdregStatus => true
  | .rdregErr => true
  | .rdregHdrVersion => true
  | .rdregHdrDeviceId => true
  | .rdregHdrPayloadLen => true
  | .rdregRecCount => true
  | .rdregRecSel => true
  | .rdregRecCmd => true
  | .rdregRecLen => true
  | .rdregRecOff => true
  | .rdregRecData => true
  | .rdregReserved n => decide (12 ≤ n.toNat)
  | .reset => true

end Sys2Proof
end

