-- ==== Sys2Proof/Decode.lean ====
section
/-! DEFINITION. Decoding: wire items (30_encoding R91, R92, R94, R95), the step decode table (R100), beats (R105) and host
accesses (R106, R224); then the encoder (R112 for wire items) and the host's view of the table's bare words. -/

namespace Sys2Proof

/-! ## Byte order -/

/-- `be(s)` of 00_scope R13: the first byte is the most significant. -/
def be (s : List Byte) : Nat := s.foldl (fun a b => a * 256 + b.toNat) 0

/-- `beN(v)` of R112: the `n` bytes `s` with `be(s) = v`, most significant first. -/
def beBytes : Nat → Nat → List Byte
  | 0, _ => []
  | n + 1, v => beBytes n (v / 256) ++ [BitVec.ofNat 8 v]

/-- A 16-bit field from its bytes (R94). -/
def u16 (s : List Byte) : U16 := BitVec.ofNat 16 (be s)

/-- A 32-bit field from its bytes (R94). -/
def u32 (s : List Byte) : U32 := BitVec.ofNat 32 (be s)

/-- The two bytes of a 16-bit field. -/
def u16Bytes (v : U16) : List Byte := beBytes 2 v.toNat

/-- The four bytes of a 32-bit field. -/
def u32Bytes (v : U32) : List Byte := beBytes 4 v.toNat

/-! ## Wire items -/

/-- A 16-bit field at the head of the bytes (R94). -/
def readU16 (mk : U16 → Instr) : List Byte → Decoded
  | b1 :: b0 :: rest => .ok (mk (u16 [b1, b0])) rest
  | _ => .reject .truncated

/-- A 32-bit field at the head of the bytes (R94). -/
def readU32 (mk : U32 → Instr) : List Byte → Decoded
  | b3 :: b2 :: b1 :: b0 :: rest => .ok (mk (u32 [b3, b2, b1, b0])) rest
  | _ => .reject .truncated

/-- A single byte at the head of the bytes (R94). -/
def readU8 (mk : Byte → Instr) : List Byte → Decoded
  | b :: rest => .ok (mk b) rest
  | _ => .reject .truncated

/-- A header at the head of the bytes (R91). -/
def readHeader : List Byte → Decoded
  | v1 :: v0 :: d3 :: d2 :: d1 :: d0 :: p1 :: p0 :: rest =>
      .ok (.header (u16 [v1, v0]) (u32 [d3, d2, d1, d0]) (u16 [p1, p0])) rest
  | _ => .reject .truncated

/-- `n` data bytes at the head of the bytes (R95). -/
def readData (mk : List Byte → Instr) (n : Nat) (bs : List Byte) : Decoded :=
  if n ≤ bs.length then .ok (mk (bs.take n)) (bs.drop n) else .reject .truncated

/-- A record at the head of the bytes: its Length field tells how many data bytes follow (R92, R97). -/
def readRecord : List Byte → Decoded
  | c :: l1 :: l0 :: rest => readData (.record c (u16 [l1, l0])) (u16 [l1, l0]).toNat rest
  | _ => .reject .truncated

/-- The wire item `k` at the head of `bs`, and the bytes after it. Every bit pattern is legal (R96); the only way to fail
is to be too short. -/
def decodeWire (k : WireKind) (bs : List Byte) : Decoded :=
  match k with
  | .header => readHeader bs
  | .headerVersion => readU16 .headerVersion bs
  | .headerDeviceId => readU32 .headerDeviceId bs
  | .headerPayloadLen => readU16 .headerPayloadLen bs
  | .record => readRecord bs
  | .recordCommandId => readU8 .recordCommandId bs
  | .recordLength => readU16 .recordLength bs
  | .recordData n => readData .recordData n.toNat bs

/-! ## Step selection -/

/-- The step decode table, row by row as R100 prints it. -/
def stepRows : List StepRow :=
  [ ⟨0x08#6, 0x38#6, .always, .peekHdr⟩,
    ⟨0x10#6, 0x3F#6, .always, .hdrVersion⟩,
    ⟨0x11#6, 0x3F#6, .always, .hdrDeviceId⟩,
    ⟨0x12#6, 0x3F#6, .always, .hdrPayloadLen⟩,
    ⟨0x18#6, 0x38#6, .always, .peekPay⟩,
    ⟨0x23#6, 0x3F#6, .riEqPlen, .assemble⟩,
    ⟨0x23#6, 0x3F#6, .riLtPlen, .recCommandId⟩,
    ⟨0x24#6, 0x3F#6, .always, .recLength⟩,
    ⟨0x25#6, 0x3F#6, .cntLtRlen, .recData⟩,
    ⟨0x25#6, 0x3F#6, .cntEqRlen, .recCommit⟩ ]

/-- The data guards of R100. -/
def Guard.holds (g : Guard) (ri plen cnt rlen : U16) : Bool :=
  match g with
  | .always => true
  | .riEqPlen => ri == plen
  | .riLtPlen => decide (ri.toNat < plen.toNat)
  | .cntLtRlen => decide (cnt.toNat < rlen.toNat)
  | .cntEqRlen => cnt == rlen

/-- `(cw AND mask) = match` (R100). -/
def StepRow.matchesWord (r : StepRow) (cw : BitVec 6) : Bool := cw &&& r.mask == r.bits

/-- A row selects when its word matches and its guard holds (R100). -/
def StepRow.selects (r : StepRow) (cw : BitVec 6) (ri plen cnt rlen : U16) : Bool :=
  r.matchesWord cw && r.guard.holds ri plen cnt rlen

/-- PARSER's step for a control word, or why there is none (R100, R101). -/
def decodeStep (cw : BitVec 6) (ri plen cnt rlen : U16) : Decoded :=
  match stepRows.find? (fun r => r.selects cw ri plen cnt rlen) with
  | some r => .ok r.instr []
  | none =>
      if stepRows.any (fun r => r.matchesWord cw) then .reject .guardFails
      else if cw >>> 3 == 0 || cw >>> 3 == 5 || cw >>> 3 == 6 then .reject .noParserStep
      else .reject .reservedControlWord

/-! ## Beats and host accesses -/

/-- A beat by `in_kind` (R105). -/
def decodeBeat (kind : BitVec 2) (data : Byte) : Decoded :=
  match kind.toNat with
  | 0 => .ok (.srcData data) []
  | 1 => .ok .srcEos []
  | 2 => .ok (.srcErr data) []
  | _ => .ok .srcReserved []

/-- A register read by number (R106, R222). -/
def decodeRead (num : BitVec 4) : Instr :=
  match num.toNat with
  | 0 => .rdregCtrl
  | 1 => .rdregStatus
  | 2 => .rdregErr
  | 3 => .rdregHdrVersion
  | 4 => .rdregHdrDeviceId
  | 5 => .rdregHdrPayloadLen
  | 6 => .rdregRecCount
  | 7 => .rdregRecSel
  | 8 => .rdregRecCmd
  | 9 => .rdregRecLen
  | 10 => .rdregRecOff
  | 11 => .rdregRecData
  | _ => .rdregReserved num

/-- A register write by number; a write that changes nothing has no row (R106, R107, R223). -/
def decodeWrite (num : BitVec 4) (wdata : U32) : Decoded :=
  match num.toNat with
  | 0 => .ok (.start wdata) []
  | 7 => .ok (.wrregRecSel wdata) []
  | 10 => .ok (.wrregRecOff wdata) []
  | _ => .reject .unlistedWrite

/-- The decoder: total on every word, and a word without an operation is rejected by name. -/
def decode : OpWord → Decoded
  | .wire k bs => decodeWire k bs
  | .step cw ri plen cnt rlen => decodeStep cw ri plen cnt rlen
  | .beat k d => decodeBeat k d
  | .host true num wdata => decodeWrite num wdata
  | .host false num _ => .ok (decodeRead num) []
  | .rst true => .ok .reset []
  | .rst false => .reject .resetLow

/-! ## The encoder -/

/-- The bytes of a wire item in stream order (R112); nothing for the other formats. -/
def wireBytes : Instr → List Byte
  | .header v d p => u16Bytes v ++ (u32Bytes d ++ u16Bytes p)
  | .headerVersion v => u16Bytes v
  | .headerDeviceId d => u32Bytes d
  | .headerPayloadLen p => u16Bytes p
  | .record c l d => c :: (u16Bytes l ++ d)
  | .recordCommandId c => [c]
  | .recordLength l => u16Bytes l
  | .recordData d => d
  | .peekHdr | .hdrVersion | .hdrDeviceId | .hdrPayloadLen | .peekPay | .assemble
  | .recCommandId | .recLength | .recData | .recCommit
  | .srcData _ | .srcEos | .srcErr _ | .srcReserved
  | .start _ | .wrregRecSel _ | .wrregRecOff _ | .rdregCtrl | .rdregStatus | .rdregErr
  | .rdregHdrVersion | .rdregHdrDeviceId | .rdregHdrPayloadLen | .rdregRecCount | .rdregRecSel
  | .rdregRecCmd | .rdregRecLen | .rdregRecOff | .rdregRecData | .rdregReserved _ | .reset => []

/-- The word of an operation, with zeros where a bit is ignored and the least values that meet a data guard. -/
def encode : Instr → OpWord
  | .header v d p => .wire .header (wireBytes (.header v d p))
  | .headerVersion v => .wire .headerVersion (wireBytes (.headerVersion v))
  | .headerDeviceId d => .wire .headerDeviceId (wireBytes (.headerDeviceId d))
  | .headerPayloadLen p => .wire .headerPayloadLen (wireBytes (.headerPayloadLen p))
  | .record c l d => .wire .record (wireBytes (.record c l d))
  | .recordCommandId c => .wire .recordCommandId (wireBytes (.recordCommandId c))
  | .recordLength l => .wire .recordLength (wireBytes (.recordLength l))
  | .recordData d => .wire (.recordData (BitVec.ofNat 16 d.length)) (wireBytes (.recordData d))
  | .peekHdr => .step 0x08 0 0 0 0
  | .hdrVersion => .step 0x10 0 0 0 0
  | .hdrDeviceId => .step 0x11 0 0 0 0
  | .hdrPayloadLen => .step 0x12 0 0 0 0
  | .peekPay => .step 0x18 0 0 0 0
  | .assemble => .step 0x23 0 0 0 0
  | .recCommandId => .step 0x23 0 1 0 0
  | .recLength => .step 0x24 0 0 0 0
  | .recData => .step 0x25 0 0 0 1
  | .recCommit => .step 0x25 0 0 0 0
  | .srcData b => .beat 0 b
  | .srcEos => .beat 1 0
  | .srcErr c => .beat 2 c
  | .srcReserved => .beat 3 0
  | .start w => .host true 0 w
  | .wrregRecSel w => .host true 7 w
  | .wrregRecOff w => .host true 10 w
  | .rdregCtrl => .host false 0 0
  | .rdregStatus => .host false 1 0
  | .rdregErr => .host false 2 0
  | .rdregHdrVersion => .host false 3 0
  | .rdregHdrDeviceId => .host false 4 0
  | .rdregHdrPayloadLen => .host false 5 0
  | .rdregRecCount => .host false 6 0
  | .rdregRecSel => .host false 7 0
  | .rdregRecCmd => .host false 8 0
  | .rdregRecLen => .host false 9 0
  | .rdregRecOff => .host false 10 0
  | .rdregRecData => .host false 11 0
  | .rdregReserved n => .host false n 0
  | .reset => .rst true

/-- The format of an instruction's row (R107). -/
def instrFormat : Instr → Format
  | .header _ _ _ | .headerVersion _ | .headerDeviceId _ | .headerPayloadLen _
  | .record _ _ _ | .recordCommandId _ | .recordLength _ | .recordData _ => .wire
  | .peekHdr | .hdrVersion | .hdrDeviceId | .hdrPayloadLen | .peekPay | .assemble
  | .recCommandId | .recLength | .recData | .recCommit => .step
  | .srcData _ | .srcEos | .srcErr _ | .srcReserved => .beat
  | .start _ | .wrregRecSel _ | .wrregRecOff _ | .rdregCtrl | .rdregStatus | .rdregErr
  | .rdregHdrVersion | .rdregHdrDeviceId | .rdregHdrPayloadLen | .rdregRecCount | .rdregRecSel
  | .rdregRecCmd | .rdregRecLen | .rdregRecOff | .rdregRecData | .rdregReserved _ | .reset => .host

/-- The format of a word (R107). -/
def wordFormat : OpWord → Format
  | .wire _ _ => .wire
  | .step _ _ _ _ _ => .step
  | .beat _ _ => .beat
  | .host _ _ _ => .host
  | .rst _ => .host

/-! ## The table's bare words -/

/-- Does the 5-bit host word `{reg_we, reg_num}` have a row (R107)? -/
def hostWordHasRow (w : Nat) : Bool := decide (w < 17) || w == 23 || w == 26

/-- A bare word of the opcode table laid out as the hardware presents it, `nbits` of it given and every further bit 0.
The words of the STEP, BEAT, HOST and RESET rows overlap (they are words of different selectors), so a bare word is read by
the narrowest selector that has a row for it: rst (1 bit), in_kind (2), {reg_we, reg_num} (5), cw (6). Longer words are wire
items, most significant byte first; a record's Data bytes are zeros (log 13). -/
def tableWord (nbits w : Nat) : OpWord :=
  if nbits = 64 then .wire .header (beBytes 8 w)
  else if nbits = 24 ∨ nbits = 32 then
    .wire .record (beBytes 3 w ++ List.replicate (w % 65536) 0)
  else if nbits = 16 then
    if 12 ≤ w ∧ w < 16 then .host false (BitVec.ofNat 4 w) 0 else .wire .headerPayloadLen (beBytes 2 w)
  else if nbits = 0 then .wire .headerVersion (beBytes 2 w)
  else if w = 1 then .rst true
  else if w < 4 then .beat (BitVec.ofNat 2 w) 0
  else if hostWordHasRow w then .host (decide (16 ≤ w)) (BitVec.ofNat 4 w) 0
  else .step (BitVec.ofNat 6 w) 0 0 0 0

/-- The instruction the decoder reads from a bare word of the opcode table. -/
def decodeTableWord (nbits w : Nat) : Option Instr :=
  match decode (tableWord nbits w) with
  | .ok i _ => some i
  | .reject _ => none

end Sys2Proof
end

