-- ==== Sys2Proof/Machine/State.lean ====
section
/-! DEFINITION. The state of one GPFP instance (10_state R20 to R31) and of the agents around it, as plain data; the reset
state (R48); why a step can stop. -/

namespace Sys2Proof.Machine

open Sys2Proof

/-- `st`, the Frame Assembler's state (R22); code 7 cannot be written down (R101, U11). -/
inductive St where
  | idle
  | awaitHdr
  | hdrDec
  | awaitPay
  | payDec
  | done
  | failed
deriving DecidableEq, Repr

/-- `term`, the terminator (R21). -/
inductive Term where
  | opened
  | eos
  | ioErr (c : IoCode)
deriving DecidableEq, Repr

/-- The nested cause of a checkpoint's error (R240). -/
inductive Cause where
  | endOfStream
  | ioError (c : IoCode)
deriving DecidableEq, Repr

/-- A classified error (R240). -/
inductive Err where
  | headerFormatError (cause : Cause)
  | dataLengthError (cause : Cause)
  | malformedHeader (field : Fld)
  | malformedRecord (index : U16) (field : Fld)
  | ioError (c : IoCode)
deriving DecidableEq, Repr

/-- A completed record (R29). -/
structure Record where
  commandId : Byte
  length : U16
  data : List Byte
deriving DecidableEq, Repr

/-- A decoded header (R15). -/
structure Header where
  version : U16
  deviceId : U32
  payloadLen : U16
deriving DecidableEq, Repr

/-- A decoded message (R15, R16). -/
structure Frame where
  header : Header
  records : List Record
deriving DecidableEq, Repr

/-- What a finished decode gives its caller (R226). -/
inductive Result where
  | ok (f : Frame)
  | err (e : Err)
deriving DecidableEq, Repr

/-- What PeekOutcome answers (R64). -/
inductive Peek where
  | ok
  | endOfStream
  | ioError (c : IoCode)
  | wait
deriving DecidableEq, Repr

/-- What ReadByteOutcome answers (R66). -/
inductive ReadByte where
  | byte (b : Byte)
  | short
  | ioFail (c : IoCode)
  | wait
deriving DecidableEq, Repr

/-- A beat on the input port (R46, R105): the values of `in_kind` and `in_data`. -/
structure Beat where
  kind : BitVec 2
  data : Byte
deriving DecidableEq, Repr

/-- A request of HOST: an access at the register port (R46, R106), or `rst` for one edge (R224). -/
inductive HostReq where
  | access (we : Bool) (num : BitVec 4) (wdata : U32)
  | rst
deriving DecidableEq, Repr

/-- Whose step is next (R10). `item` and `field` let PARSER and SOURCE together read one whole wire item, the header or
record, or the single field, at the cursor (log 5). -/
inductive Turn where
  | parser
  | source
  | host
  | item
  | field
deriving DecidableEq, Repr

/-- The agents around the block, the model's own (log 1 to 4). -/
structure Env where
  /-- whose step is next; when empty, the default order of `State.turn` -/
  turns : List Turn
  /-- the beats SOURCE holds, in stream order -/
  source : List Beat
  /-- the requests HOST makes, in order -/
  host : List HostReq
  /-- what the last register read returned to HOST -/
  rdata : U32
deriving DecidableEq, Repr

/-- The state (R20), with `rstSeen` (R283) and the agents' plain data. -/
structure State where
  /-- bytes arrived and not consumed (R21) -/
  buf : List Byte
  /-- the terminator (R21) -/
  term : Term
  /-- the cursor, ghost (R21) -/
  pos : Nat
  /-- the Frame Assembler's state (R22) -/
  st : St
  /-- the field being read (R23) -/
  fld : Fld
  /-- bytes of the field already consumed (R24) -/
  cnt : U16
  /-- the accumulator of the integer field (R25) -/
  acc : U32
  /-- Version (R26) -/
  ver : U16
  /-- DeviceID (R26) -/
  dev : U32
  /-- PayloadLen, a record count (R26) -/
  plen : U16
  /-- index of the record being decoded (R27) -/
  ri : U16
  /-- CommandID under construction (R28) -/
  cid : Byte
  /-- Length under construction (R28) -/
  rlen : U16
  /-- Data under construction (R28) -/
  dat : List Byte
  /-- the frame store (R29) -/
  recs : List Record
  /-- the recorded failure (R30) -/
  err : Option Err
  /-- HOST's record pointer (R31) -/
  recSel : U16
  /-- HOST's data-byte pointer (R31) -/
  recOff : U16
  /-- `rst` has been asserted since power-up (R283; log 7) -/
  rstSeen : Bool
  /-- the agents around the block -/
  env : Env
deriving DecidableEq, Repr

/-- Why the machine stops with a fault. -/
inductive Fault where
  /-- Raised by every meaning but RESET's while `rst` has not been asserted since power-up (R283, U12: stuck). Safe: the
  model stops where the spec gives no step. -/
  | beforeReset
deriving DecidableEq, Repr

/-- Why an instruction has no meaning. -/
inductive Refusal where
  /-- An instruction not modelled yet, named by its row; raised by an arm of `exec` only, and no arm raises it now.
  Safe: the model stops. -/
  | notModelled (mnemonic : String)
  /-- A record that a bounded frame store cannot hold (93_implementation_defined U8: refuse); raised by REC.COMMIT and RECORD
  under a bounded `STORE`, which this hardware does not have. Safe: the model stops where the spec gives no step. -/
  | storeFull
deriving DecidableEq, Repr

/-- The outcome of one operation. -/
abbrev Out := Host.Outcome State Fault Refusal

/-- The state after reset (R48); the agents hold nothing (log 24). -/
def State.reset : State where
  buf := []
  term := .opened
  pos := 0
  st := .idle
  fld := .version
  cnt := 0
  acc := 0
  ver := 0
  dev := 0
  plen := 0
  ri := 0
  cid := 0
  rlen := 0
  dat := []
  recs := []
  err := none
  recSel := 0
  recOff := 0
  rstSeen := true
  env := { turns := [], source := [], host := [], rdata := 0 }

end Sys2Proof.Machine
end

