-- ==== Sys2Proof/Machine/Ops.lean ====
section
/-! DEFINITION. The named operations on the state: the reader primitives (20_memory R63 to R67), acceptance of beats
(40_stream_reader R133), taking a failure (60_exceptions R250) and leaving it by START (R220, R256), the frame store,
the codes of R98 and R99, and the guards every meaning checks. -/

namespace Sys2Proof

/-! ## What the parameters of R6 allow -/

/-- Has a buffer of `n` bytes room for one more (R130)? -/
def Params.room (P : Params) (n : Nat) : Bool :=
  match P.bufcap with
  | some c => decide (n < c)
  | none => true

/-- Is a buffer of `n` bytes within `BUFCAP` (R21)? -/
def Params.holds (P : Params) (n : Nat) : Bool :=
  match P.bufcap with
  | some c => decide (n ≤ c)
  | none => true

/-- The `IOCODE_W`-bit cause code that `in_data` brings, zero-extended again (R132; log 25). -/
def Params.code (P : Params) (c : IoCode) : IoCode := (c.setWidth P.iocodeW).setWidth 8

/-- Does a store of `n` records have room for one more of `len` data bytes (R6; log 26)? -/
def Params.fits (P : Params) (n : Nat) (len : U16) : Bool :=
  match P.store with
  | .unbounded => true
  | .bounded r d => decide (n < r) && decide (len.toNat ≤ d)

end Sys2Proof

namespace Sys2Proof.Machine

open Sys2Proof

/-! ## Codes -/

/-- The code of `st` (R98). -/
def St.code : St → BitVec 3
  | .idle => 0
  | .awaitHdr => 1
  | .hdrDec => 2
  | .awaitPay => 3
  | .payDec => 4
  | .done => 5
  | .failed => 6

/-- The state with a code; 7 is reserved (R98). -/
def stOfCode (c : Nat) : Option St :=
  match c with
  | 0 => some .idle
  | 1 => some .awaitHdr
  | 2 => some .hdrDec
  | 3 => some .awaitPay
  | 4 => some .payDec
  | 5 => some .done
  | 6 => some .failed
  | _ => none

/-- The code of a field (R99). -/
def fieldCode : Fld → BitVec 3
  | .version => 0
  | .deviceId => 1
  | .payloadLen => 2
  | .commandId => 3
  | .length => 4
  | .data => 5

/-- The field with a code; 6 and 7 are reserved (R99). -/
def fieldOfCode (c : Nat) : Option Fld :=
  match c with
  | 0 => some .version
  | 1 => some .deviceId
  | 2 => some .payloadLen
  | 3 => some .commandId
  | 4 => some .length
  | 5 => some .data
  | _ => none

/-- The width `W(fld)` of a field in bytes (R23). -/
def State.fieldWidth (s : State) : Fld → Nat
  | .version => 2
  | .deviceId => 4
  | .payloadLen => 2
  | .commandId => 1
  | .length => 2
  | .data => s.rlen.toNat

/-- The control word `cw = {st, fld}` (R100). -/
def State.cw (s : State) : BitVec 6 := s.st.code ++ fieldCode s.fld

/-! ## Guards of a meaning -/

/-- Before the first reset the block has no step (R283). -/
def State.whenReset (s : State) (k : Out) : Out := if s.rstSeen then k else .fault .beforeReset

/-- An operation whose guard is false takes no step: the state stays (R14). -/
def State.when (s : State) (p : Prop) [Decidable p] (k : Out) : Out := if p then k else .next s

/-! ## The reader -/

/-- `Avail(n)` (R63). -/
def State.avail (s : State) (n : Nat) : Bool := decide (n ≤ s.buf.length)

/-- `PeekOutcome(n)`: availability first, terminator second (R64). It writes nothing (R65). -/
def State.peekOutcome (s : State) (n : Nat) : Peek :=
  if s.avail n then .ok
  else match s.term with
    | .eos => .endOfStream
    | .ioErr c => .ioError c
    | .opened => .wait

/-- `ReadByteOutcome()` (R66). -/
def State.readByteOutcome (s : State) : ReadByte :=
  match s.buf with
  | b :: _ => .byte b
  | [] => match s.term with
    | .eos => .short
    | .ioErr c => .ioFail c
    | .opened => .wait

/-- `Take()` (R67): drops the head of the buffer and advances the cursor by 1. -/
def State.take (s : State) : State := { s with buf := s.buf.tail, pos := s.pos + 1 }

/-- `in_ready` for an offered kind (R133). -/
def State.inReady (P : Params) (s : State) (kind : BitVec 2) : Bool :=
  s.term == .opened && kind != 3 && (kind != 0 || P.room s.buf.length)

/-- SOURCE's byte goes to the tail of the buffer (R130). -/
def State.push (s : State) (b : Byte) : State := { s with buf := s.buf ++ [b] }

/-- The stream closes (R131, R132). -/
def State.close (s : State) (t : Term) : State := { s with term := t }

/-! ## The whole stream at the cursor, for wire items (log 5) -/

/-- The bytes of SOURCE's leading DATA beats. -/
def dataPrefix : List Beat → List Byte
  | [] => []
  | b :: bs => if b.kind = 0 then b.data :: dataPrefix bs else []

/-- The stream from the cursor on: what is buffered, then what SOURCE will send while the stream is open (R60, R72). -/
def State.pending (s : State) : List Byte :=
  s.buf ++ (if s.term = .opened then dataPrefix s.env.source else [])

/-- `n` bytes of the stream pass through the buffer and are taken: the composition of `n` Takes with the beats that refill
the empty buffer (R67, R130). -/
def State.takeStream (s : State) (n : Nat) : State :=
  { s with
    buf := s.buf.drop n
    pos := s.pos + n
    env := { s.env with source := s.env.source.drop (n - s.buf.length) } }

/-! ## Failure entry and exit -/

/-- `raise Fail(e)`: `st <- FAILED; ERR <- e` and nothing else (R250). -/
def State.fail (s : State) (e : Err) : State := { s with st := .failed, err := some e }

/-- What START does: a new decode at the current cursor, every parser register and both pointers cleared, the reader
untouched (R220). It is the way out of FAILED (R256). -/
def State.beginDecode (s : State) : State :=
  { s with
    st := .awaitHdr
    fld := .version
    cnt := 0
    acc := 0
    ver := 0
    dev := 0
    plen := 0
    ri := 0
    cid := 0
    rlen := 0
    dat := []
    recs := []
    err := none
    recSel := 0
    recOff := 0 }

/-- `rst` for one edge: every piece of the block's state takes its reset value (R280); the agents around it keep what they
hold (log 17). -/
def State.doReset (s : State) : State := { State.reset with env := s.env }

/-! ## The frame store -/

/-- `RECS <- RECS ++ [r]` and what REC.COMMIT does with it (R174). -/
def State.commit (s : State) (r : Record) : State :=
  { s with
    recs := s.recs ++ [r]
    ri := s.ri + 1
    fld := .commandId
    cnt := 0
    acc := 0
    dat := [] }

/-- The record goes to the frame store if it holds it; a record that does not fit is refused (U8; log 26). -/
def State.store (P : Params) (s : State) (r : Record) (k : Out) : Out :=
  if P.fits s.recs.length r.length then k else .refused .storeFull

/-- One data byte of the frame store, by record index and data offset (R60, R71). -/
def State.storeByte (s : State) (i j : Nat) : Option Byte :=
  match s.recs[i]? with
  | some r => r.data[j]?
  | none => none

/-- A record's Data counts its Length (R29). -/
def Record.wf (r : Record) : Bool := r.data.length == r.length.toNat

/-- The form of the two spaces of R60: the buffer within its capacity, every stored record well formed (log 18). -/
def Memory.wf (P : Params) (s : State) : Bool := P.holds s.buf.length && s.recs.all Record.wf

/-! ## Turns -/

/-- What HOST received from a register read (R222; log 4). -/
def State.setRdata (s : State) (v : U32) : State := { s with env := { s.env with rdata := v } }

/-- The turn at the head of the schedule is spent. -/
def State.popTurn (s : State) : State := { s with env := { s.env with turns := s.env.turns.tail } }

/-- SOURCE's first beat leaves its hands. -/
def State.popSource (s : State) : State := { s with env := { s.env with source := s.env.source.tail } }

/-- HOST's first request leaves its hands. -/
def State.popHost (s : State) : State := { s with env := { s.env with host := s.env.host.tail } }

end Sys2Proof.Machine
end

