-- ==== Sys2Proof/Machine/Flags.lean ====
section
/-! DEFINITION. The status flags (10_state R32), the STATUS and ERR register images (R35, R36, 30_encoding R102 to R104) and
the observed result (44_host_interface R226). -/

namespace Sys2Proof.Machine

open Sys2Proof

/-- `busy` (R32). -/
def State.busy (s : State) : Bool :=
  match s.st with
  | .awaitHdr | .hdrDec | .awaitPay | .payDec => true
  | .idle | .done | .failed => false

/-- `done` (R32). -/
def State.isDone (s : State) : Bool := s.st == .done

/-- `failed` (R32). -/
def State.isFailed (s : State) : Bool := s.st == .failed

/-- The code of `term` in STATUS.TERM (R104). -/
def Term.code : Term → BitVec 2
  | .opened => 0
  | .eos => 1
  | .ioErr _ => 2

/-- STATUS (R35): bits 31:8 zero, TERM 7:6, FAILED 5, DONE 4, BUSY 3, ST 2:0. -/
def State.statusImage (s : State) : U32 :=
  0#24 ++ s.term.code ++ BitVec.ofBool s.isFailed ++ BitVec.ofBool s.isDone ++ BitVec.ofBool s.busy ++ s.st.code

/-- ERR.KIND (R102). -/
def Err.kind : Err → BitVec 3
  | .headerFormatError _ => 1
  | .dataLengthError _ => 2
  | .malformedHeader _ => 3
  | .malformedRecord _ _ => 4
  | .ioError _ => 5

/-- The code of a nested cause (R103). -/
def Cause.code : Cause → BitVec 2
  | .endOfStream => 1
  | .ioError _ => 2

/-- ERR.CAUSE (R103). -/
def Err.causeCode : Err → BitVec 2
  | .headerFormatError c => c.code
  | .dataLengthError c => c.code
  | .malformedHeader _ => 0
  | .malformedRecord _ _ => 0
  | .ioError _ => 0

/-- ERR.FIELD (R36, R99). -/
def Err.fieldImage : Err → BitVec 3
  | .headerFormatError _ => 0
  | .dataLengthError _ => 0
  | .malformedHeader f => fieldCode f
  | .malformedRecord _ f => fieldCode f
  | .ioError _ => 0

/-- The I/O code of a nested cause, 0 for an end of stream (R36). -/
def Cause.ioCode : Cause → IoCode
  | .endOfStream => 0
  | .ioError c => c

/-- ERR.IOCODE (R36). -/
def Err.ioCode : Err → IoCode
  | .headerFormatError c => c.ioCode
  | .dataLengthError c => c.ioCode
  | .malformedHeader _ => 0
  | .malformedRecord _ _ => 0
  | .ioError c => c

/-- ERR.INDEX (R36). -/
def Err.index : Err → U16
  | .headerFormatError _ => 0
  | .dataLengthError _ => 0
  | .malformedHeader _ => 0
  | .malformedRecord i _ => i
  | .ioError _ => 0

/-- The image of an error value (R36): INDEX 31:16, IOCODE 15:8, FIELD 7:5, CAUSE 4:3, KIND 2:0. -/
def Err.image (e : Err) : U32 := e.index ++ e.ioCode ++ e.fieldImage ++ e.causeCode ++ e.kind

/-- The ERR register: 0 unless FAILED (R36). -/
def State.errImage (s : State) : U32 :=
  if s.st = .failed then
    match s.err with
    | some e => e.image
    | none => 0
  else 0

/-- `Result(s)` (R226); none before the first reset (R283). -/
def State.result (s : State) : Option Result :=
  if s.rstSeen then
    match s.st with
    | .done => some (.ok ⟨⟨s.ver, s.dev, s.plen⟩, s.recs⟩)
    | .failed => s.err.map Result.err
    | .idle | .awaitHdr | .hdrDec | .awaitPay | .payDec => none
  else none

end Sys2Proof.Machine
end

