-- ==== Sys2Proof/Machine/Operands.lean ====
section
/-! DEFINITION. How operations get their operands: the byte of a consuming step (40_stream_reader R137), the assembly of an
integer field (30_encoding R94), the value of a host register (10_state R33 to R45), and a wire item at the cursor. -/

namespace Sys2Proof.Machine

open Sys2Proof

/-- `acc * 256 + b` (R94). -/
def State.accWith (s : State) (b : Byte) : U32 := s.acc * 256 + b.setWidth 32

/-- One byte of an integer field of `w` bytes: accumulate, or on the last byte hand the value to `fin` and clear `acc` and
`cnt` (the Deliver of R151, R152, R153, R172). -/
def State.deliverInt (w : Nat) (fin : U32 → State → State) (b : Byte) (s : State) : State :=
  if s.cnt.toNat + 1 < w then { s with acc := s.accWith b, cnt := s.cnt + 1 }
  else { fin (s.accWith b) s with acc := 0, cnt := 0 }

/-- The template of every consuming step (R137): `e` is ShortErr(F). -/
def State.consume (s : State) (e : Err) (deliver : Byte → State → State) : Out :=
  match s.readByteOutcome with
  | .byte b => .next (deliver b s.take)
  | .short => .next (s.fail e)
  | .ioFail c => .next (s.fail (.ioError c))
  | .wait => .next s

/-- The template of the two checkpoints (R134, R135): `wrap` is the checkpoint's own error kind. -/
def State.checkpoint (s : State) (n : Nat) (wrap : Cause → Err) (proceed : State → State) : Out :=
  match s.peekOutcome n with
  | .ok => .next (proceed s)
  | .endOfStream => .next (s.fail (wrap .endOfStream))
  | .ioError c => .next (s.fail (wrap (.ioError c)))
  | .wait => .next s

/-- The record `REC_SEL` selects, in DONE only (R42, R43, R45). -/
def State.selected (s : State) : Option Record := if s.st = .done then s.recs[s.recSel.toNat]? else none

/-- The value of host register `n` (R33 to R45); numbers 12 to 15 read 0. -/
def State.regRead (s : State) (n : BitVec 4) : U32 :=
  match n.toNat with
  | 1 => s.statusImage
  | 2 => s.errImage
  | 3 => if s.st = .done then s.ver.setWidth 32 else 0
  | 4 => if s.st = .done then s.dev else 0
  | 5 => if s.st = .done then s.plen.setWidth 32 else 0
  | 6 => if s.st = .done then (BitVec.ofNat 16 s.recs.length).setWidth 32 else 0
  | 7 => s.recSel.setWidth 32
  | 8 => match s.selected with
    | some r => r.commandId.setWidth 32
    | none => 0
  | 9 => match s.selected with
    | some r => r.length.setWidth 32
    | none => 0
  | 10 => s.recOff.setWidth 32
  | 11 => match s.selected with
    | some r => if s.recOff.toNat < r.length.toNat then (r.data[s.recOff.toNat]?.getD 0).setWidth 32 else 0
    | none => 0
  | _ => 0

/-- HOST reads register `n`: the value goes to HOST, the block does not change (R222). -/
def State.readReg (s : State) (n : BitVec 4) : Out := s.whenReset (.next (s.setRdata (s.regRead n)))

/-- The wire item with bytes `bs` is at the cursor and `p` holds: its bytes are taken and `k` goes on; otherwise no step
(log 5). -/
def State.wireItem (s : State) (bs : List Byte) (p : Prop) [Decidable p] (k : State → Out) : Out :=
  s.whenReset (s.when (p ∧ bs.isPrefixOf s.pending = true) (k (s.takeStream bs.length)))

end Sys2Proof.Machine
end

