-- ==== Sys2Proof/Machine/HeaderDecoder.lean ====
section
/-! DEFINITION. The Header Decoder (41_header_decoder): one byte of a header field a step. -/

namespace Sys2Proof.Machine

open Sys2Proof

/-- HDR.VERSION (R151). -/
def execHdrVersion (s : State) : Out :=
  s.whenReset (s.when (s.st = .hdrDec ∧ s.fld = .version)
    (s.consume (.malformedHeader .version)
      (State.deliverInt 2 fun v t => { t with ver := v.setWidth 16, fld := .deviceId })))

/-- HDR.DEVICEID (R152). -/
def execHdrDeviceId (s : State) : Out :=
  s.whenReset (s.when (s.st = .hdrDec ∧ s.fld = .deviceId)
    (s.consume (.malformedHeader .deviceId)
      (State.deliverInt 4 fun v t => { t with dev := v, fld := .payloadLen })))

/-- HDR.PAYLOADLEN (R153): its last byte moves the assembler to the payload checkpoint. -/
def execHdrPayloadLen (s : State) : Out :=
  s.whenReset (s.when (s.st = .hdrDec ∧ s.fld = .payloadLen)
    (s.consume (.malformedHeader .payloadLen)
      (State.deliverInt 2 fun v t => { t with plen := v.setWidth 16, st := .awaitPay })))

end Sys2Proof.Machine
end

