-- ==== Sys2Proof/Machine/HostPort.lean ====
section
/-! DEFINITION. HOST's operations (44_host_interface): START, the pointer writes, the register reads, RESET. -/

namespace Sys2Proof.Machine

open Sys2Proof

/-- START: a write to CTRL (R220). Bits 31:1 are ignored and bit 0 clear does nothing (R34, R223); while busy it is
dropped (R221). -/
def execStart (w : U32) (s : State) : Out :=
  s.whenReset (s.when (w.getLsbD 0 = true ∧ s.busy = false) (.next s.beginDecode))

/-- WRREG(7, v): `REC_SEL <- v[15:0]` (R223). -/
def execWrregRecSel (w : U32) (s : State) : Out := s.whenReset (.next { s with recSel := w.setWidth 16 })

/-- WRREG(10, v): `REC_OFF <- v[15:0]` (R223). -/
def execWrregRecOff (w : U32) (s : State) : Out := s.whenReset (.next { s with recOff := w.setWidth 16 })

/-- RDREG(0) (R34, R222). -/
def execRdregCtrl (s : State) : Out := s.readReg 0

/-- RDREG(1) (R35, R222). -/
def execRdregStatus (s : State) : Out := s.readReg 1

/-- RDREG(2) (R36, R222). -/
def execRdregErr (s : State) : Out := s.readReg 2

/-- RDREG(3) (R37, R222). -/
def execRdregHdrVersion (s : State) : Out := s.readReg 3

/-- RDREG(4) (R38, R222). -/
def execRdregHdrDeviceId (s : State) : Out := s.readReg 4

/-- RDREG(5) (R39, R222). -/
def execRdregHdrPayloadLen (s : State) : Out := s.readReg 5

/-- RDREG(6) (R40, R222). -/
def execRdregRecCount (s : State) : Out := s.readReg 6

/-- RDREG(7) (R41, R222). -/
def execRdregRecSel (s : State) : Out := s.readReg 7

/-- RDREG(8) (R42, R222). -/
def execRdregRecCmd (s : State) : Out := s.readReg 8

/-- RDREG(9) (R43, R222). -/
def execRdregRecLen (s : State) : Out := s.readReg 9

/-- RDREG(10) (R44, R222). -/
def execRdregRecOff (s : State) : Out := s.readReg 10

/-- RDREG(11) (R45, R222). -/
def execRdregRecData (s : State) : Out := s.readReg 11

/-- RDREG(12) to RDREG(15): reads 0 (R33, R222). -/
def execRdregReserved (n : BitVec 4) (s : State) : Out := s.readReg n

/-- RESET (R224, R280): needs no earlier reset. -/
def execReset (s : State) : Out := .next s.doReset

end Sys2Proof.Machine
end

