-- ==== Sys2Proof/Machine/Reader.lean ====
section
/-! DEFINITION. The reader family (40_stream_reader): SOURCE's beats and PARSER's two checkpoints. -/

namespace Sys2Proof.Machine

open Sys2Proof

/-- SRC.DATA(b) (R130); not accepted while the buffer is full or the stream has ended (R133). -/
def execSrcDataWith (P : Params) (b : Byte) (s : State) : Out :=
  s.whenReset (s.when (s.term = .opened ∧ P.room s.buf.length = true) (.next (s.push b)))

/-- SRC.DATA(b) at this hardware's parameters. -/
def execSrcData (b : Byte) (s : State) : Out := execSrcDataWith Config.hardware b s

/-- SRC.EOS (R131): needs no room in the buffer. -/
def execSrcEos (s : State) : Out := s.whenReset (s.when (s.term = .opened) (.next (s.close .eos)))

/-- SRC.ERR(c) (R132). -/
def execSrcErrWith (P : Params) (c : IoCode) (s : State) : Out :=
  s.whenReset (s.when (s.term = .opened) (.next (s.close (.ioErr (P.code c)))))

/-- SRC.ERR(c) at this hardware's parameters. -/
def execSrcErr (c : IoCode) (s : State) : Out := execSrcErrWith Config.hardware c s

/-- A beat of the reserved kind is never accepted (R105, R133). -/
def execSrcReserved (s : State) : Out := s.whenReset (.next s)

/-- PEEK.HDR (R134). -/
def execPeekHdr (s : State) : Out :=
  s.whenReset (s.when (s.st = .awaitHdr)
    (s.checkpoint Config.headerBytes .headerFormatError fun t =>
      { t with st := .hdrDec, fld := .version, cnt := 0, acc := 0 }))

/-- PEEK.PAY (R135). -/
def execPeekPayWith (P : Params) (s : State) : Out :=
  s.whenReset (s.when (s.st = .awaitPay)
    (s.checkpoint (P.paywin s.plen) .dataLengthError fun t =>
      { t with st := .payDec, fld := .commandId, cnt := 0, acc := 0, ri := 0 }))

/-- PEEK.PAY at this hardware's parameters. -/
def execPeekPay (s : State) : Out := execPeekPayWith Config.hardware s

end Sys2Proof.Machine
end

