-- ==== Sys2Proof/Machine/RecordDecoder.lean ====
section
/-! DEFINITION. The Record Sequence Decoder (42_record_decoder) and the assembler's own step (43_frame_assembler R192). -/

namespace Sys2Proof.Machine

open Sys2Proof

/-- REC.COMMANDID (R171). -/
def execRecCommandId (s : State) : Out :=
  s.whenReset (s.when (s.st = .payDec ∧ s.fld = .commandId ∧ s.ri.toNat < s.plen.toNat)
    (s.consume (.malformedRecord s.ri .commandId)
      fun b t => { t with cid := b, fld := .length, acc := 0, cnt := 0 }))

/-- REC.LENGTH (R172). -/
def execRecLength (s : State) : Out :=
  s.whenReset (s.when (s.st = .payDec ∧ s.fld = .length)
    (s.consume (.malformedRecord s.ri .length)
      (State.deliverInt 2 fun v t => { t with rlen := v.setWidth 16, fld := .data, dat := [] })))

/-- REC.DATA (R173). -/
def execRecData (s : State) : Out :=
  s.whenReset (s.when (s.st = .payDec ∧ s.fld = .data ∧ s.cnt.toNat < s.rlen.toNat)
    (s.consume (.malformedRecord s.ri .data)
      fun b t => { t with dat := t.dat ++ [b], cnt := t.cnt + 1 }))

/-- REC.COMMIT (R174). -/
def execRecCommitWith (P : Params) (s : State) : Out :=
  s.whenReset (s.when (s.st = .payDec ∧ s.fld = .data ∧ s.cnt = s.rlen)
    (s.store P ⟨s.cid, s.rlen, s.dat⟩ (.next (s.commit ⟨s.cid, s.rlen, s.dat⟩))))

/-- REC.COMMIT at this hardware's parameters. -/
def execRecCommit (s : State) : Out := execRecCommitWith Config.hardware s

/-- ASSEMBLE (R192): publishes the frame. -/
def execAssemble (s : State) : Out :=
  s.whenReset (s.when (s.st = .payDec ∧ s.fld = .commandId ∧ s.ri = s.plen) (.next { s with st := .done }))

end Sys2Proof.Machine
end

