-- ==== Sys2Proof/Machine/Wire.lean ====
section
/-! DEFINITION. The WIRE rows: a whole header, record or field at the cursor decoded into its destination (30_encoding R91,
R92, R94, R95; function forms 41_header_decoder R162, 42_record_decoder R181). Each is the composition of the byte steps
that decode it, started at the item's first byte (log 5). -/

namespace Sys2Proof.Machine

open Sys2Proof

/-- HEADER: what the Header Decoder makes of the eight bytes (R91, R162). -/
def execHeader (v : U16) (d : U32) (p : U16) (s : State) : Out :=
  s.wireItem (wireBytes (.header v d p)) (s.st = .hdrDec ∧ s.fld = .version ∧ s.cnt = 0) fun t =>
    .next { t with ver := v, dev := d, plen := p, st := .awaitPay, fld := .payloadLen, acc := 0, cnt := 0 }

/-- HEADER.Version: decoded by HDR.VERSION into VER (R91, R151). -/
def execHeaderVersion (v : U16) (s : State) : Out :=
  s.wireItem (wireBytes (.headerVersion v)) (s.st = .hdrDec ∧ s.fld = .version ∧ s.cnt = 0) fun t =>
    .next { t with ver := v, fld := .deviceId, acc := 0, cnt := 0 }

/-- HEADER.DeviceID: decoded by HDR.DEVICEID into DEV (R91, R152). -/
def execHeaderDeviceId (d : U32) (s : State) : Out :=
  s.wireItem (wireBytes (.headerDeviceId d)) (s.st = .hdrDec ∧ s.fld = .deviceId ∧ s.cnt = 0) fun t =>
    .next { t with dev := d, fld := .payloadLen, acc := 0, cnt := 0 }

/-- HEADER.PayloadLen: decoded by HDR.PAYLOADLEN into PLEN (R91, R153). -/
def execHeaderPayloadLen (p : U16) (s : State) : Out :=
  s.wireItem (wireBytes (.headerPayloadLen p)) (s.st = .hdrDec ∧ s.fld = .payloadLen ∧ s.cnt = 0) fun t =>
    .next { t with plen := p, st := .awaitPay, acc := 0, cnt := 0 }

/-- RECORD: one turn of the record loop, committed (R92, R170, R174, R181). -/
def execRecordWith (P : Params) (c : Byte) (l : U16) (d : List Byte) (s : State) : Out :=
  s.wireItem (wireBytes (.record c l d))
    (s.st = .payDec ∧ s.fld = .commandId ∧ s.ri.toNat < s.plen.toNat ∧ d.length = l.toNat) fun t =>
    t.store P ⟨c, l, d⟩ (.next (State.commit { t with cid := c, rlen := l } ⟨c, l, d⟩))

/-- RECORD at this hardware's parameters. -/
def execRecord (c : Byte) (l : U16) (d : List Byte) (s : State) : Out := execRecordWith Config.hardware c l d s

/-- RECORD.CommandID: decoded by REC.COMMANDID into CID (R92, R171). -/
def execRecordCommandId (c : Byte) (s : State) : Out :=
  s.wireItem (wireBytes (.recordCommandId c)) (s.st = .payDec ∧ s.fld = .commandId ∧ s.ri.toNat < s.plen.toNat) fun t =>
    .next { t with cid := c, fld := .length, acc := 0, cnt := 0 }

/-- RECORD.Length: decoded by REC.LENGTH into RLEN (R92, R172). -/
def execRecordLength (l : U16) (s : State) : Out :=
  s.wireItem (wireBytes (.recordLength l)) (s.st = .payDec ∧ s.fld = .length ∧ s.cnt = 0) fun t =>
    .next { t with rlen := l, fld := .data, dat := [], acc := 0, cnt := 0 }

/-- RECORD.Data: the Length bytes copied unchanged by REC.DATA (R92, R95, R173). -/
def execRecordData (d : List Byte) (s : State) : Out :=
  s.wireItem (wireBytes (.recordData d))
    (s.st = .payDec ∧ s.fld = .data ∧ s.cnt = 0 ∧ d.length = s.rlen.toNat) fun t =>
    .next { t with dat := t.dat ++ d, cnt := t.rlen }

end Sys2Proof.Machine
end

