-- ==== Sys2Proof/Machine/Dispatch.lean ====
section
/-! DEFINITION. One arm per operation of opcode_table.json. -/

namespace Sys2Proof.Machine

open Sys2Proof

def exec (i : Instr) (s : State) : Host.Outcome State Fault Refusal :=
  match i with
  | .header v d p => Sys2Proof.Machine.execHeader v d p s
  | .headerVersion v => Sys2Proof.Machine.execHeaderVersion v s
  | .headerDeviceId d => Sys2Proof.Machine.execHeaderDeviceId d s
  | .headerPayloadLen p => Sys2Proof.Machine.execHeaderPayloadLen p s
  | .record c l d => Sys2Proof.Machine.execRecord c l d s
  | .recordCommandId c => Sys2Proof.Machine.execRecordCommandId c s
  | .recordLength l => Sys2Proof.Machine.execRecordLength l s
  | .recordData d => Sys2Proof.Machine.execRecordData d s
  | .peekHdr => Sys2Proof.Machine.execPeekHdr s
  | .hdrVersion => Sys2Proof.Machine.execHdrVersion s
  | .hdrDeviceId => Sys2Proof.Machine.execHdrDeviceId s
  | .hdrPayloadLen => Sys2Proof.Machine.execHdrPayloadLen s
  | .peekPay => Sys2Proof.Machine.execPeekPay s
  | .assemble => Sys2Proof.Machine.execAssemble s
  | .recCommandId => Sys2Proof.Machine.execRecCommandId s
  | .recLength => Sys2Proof.Machine.execRecLength s
  | .recData => Sys2Proof.Machine.execRecData s
  | .recCommit => Sys2Proof.Machine.execRecCommit s
  | .srcData b => Sys2Proof.Machine.execSrcData b s
  | .srcEos => Sys2Proof.Machine.execSrcEos s
  | .srcErr c => Sys2Proof.Machine.execSrcErr c s
  | .srcReserved => Sys2Proof.Machine.execSrcReserved s
  | .start w => Sys2Proof.Machine.execStart w s
  | .wrregRecSel w => Sys2Proof.Machine.execWrregRecSel w s
  | .wrregRecOff w => Sys2Proof.Machine.execWrregRecOff w s
  | .rdregCtrl => Sys2Proof.Machine.execRdregCtrl s
  | .rdregStatus => Sys2Proof.Machine.execRdregStatus s
  | .rdregErr => Sys2Proof.Machine.execRdregErr s
  | .rdregHdrVersion => Sys2Proof.Machine.execRdregHdrVersion s
  | .rdregHdrDeviceId => Sys2Proof.Machine.execRdregHdrDeviceId s
  | .rdregHdrPayloadLen => Sys2Proof.Machine.execRdregHdrPayloadLen s
  | .rdregRecCount => Sys2Proof.Machine.execRdregRecCount s
  | .rdregRecSel => Sys2Proof.Machine.execRdregRecSel s
  | .rdregRecCmd => Sys2Proof.Machine.execRdregRecCmd s
  | .rdregRecLen => Sys2Proof.Machine.execRdregRecLen s
  | .rdregRecOff => Sys2Proof.Machine.execRdregRecOff s
  | .rdregRecData => Sys2Proof.Machine.execRdregRecData s
  | .rdregReserved n => Sys2Proof.Machine.execRdregReserved n s
  | .reset => Sys2Proof.Machine.execReset s

end Sys2Proof.Machine
end

