-- ==== Sys2Proof/Machine/Fetch.lean ====
section
/-! DEFINITION. Which operation is next: the agent whose turn it is and the word that selects its operation (30_encoding
R100, R105, R106; log 1, 2, 3, 5, 15), and placing a word where the next step finds it (log 13). -/

namespace Sys2Proof.Machine

open Sys2Proof

/-- PARSER's selecting word (R50, R100). -/
def State.parserWord (s : State) : OpWord := .step s.cw s.ri s.plen s.cnt s.rlen

/-- Would PARSER's step change anything now, or does it wait or not exist (R100, R156, R177)? -/
def State.parserReady (P : Params) (s : State) : Bool :=
  match decode s.parserWord with
  | .ok .peekHdr _ => s.peekOutcome Config.headerBytes != .wait
  | .ok .peekPay _ => s.peekOutcome (P.paywin s.plen) != .wait
  | .ok .assemble _ => true
  | .ok .recCommit _ => true
  | .ok _ _ => s.readByteOutcome != .wait
  | .reject _ => false

/-- Would SOURCE's next beat be accepted now (R133)? -/
def State.sourceReady (P : Params) (s : State) : Bool :=
  match s.env.source with
  | [] => false
  | b :: _ => s.inReady P b.kind

/-- Whose turn it is: the schedule's, or when it is empty PARSER if its step is enabled, else SOURCE if its beat is accepted,
else HOST if it has a request, else PARSER (log 15). -/
def State.turn (P : Params) (s : State) : Turn :=
  match s.env.turns with
  | t :: _ => t
  | [] =>
    if s.parserReady P then .parser
    else if s.sourceReady P then .source
    else if s.env.host.isEmpty then .parser
    else .host

/-- The wire item, header or record, that starts at the cursor now, if one does. -/
def State.itemKind (s : State) : Option WireKind :=
  if s.st = .hdrDec ∧ s.fld = .version ∧ s.cnt = 0 then some .header
  else if s.st = .payDec ∧ s.fld = .commandId ∧ s.ri.toNat < s.plen.toNat then some .record
  else none

/-- The field that starts at the cursor now, if one does. -/
def State.fieldKind (s : State) : Option WireKind :=
  match s.st, s.fld with
  | .hdrDec, .version => if s.cnt = 0 then some .headerVersion else none
  | .hdrDec, .deviceId => if s.cnt = 0 then some .headerDeviceId else none
  | .hdrDec, .payloadLen => if s.cnt = 0 then some .headerPayloadLen else none
  | .payDec, .commandId => if s.ri.toNat < s.plen.toNat then some .recordCommandId else none
  | .payDec, .length => if s.cnt = 0 then some .recordLength else none
  | .payDec, .data => if s.cnt = 0 then some (.recordData s.rlen) else none
  | _, _ => none

/-- The word of a host request (R106, R224). -/
def hostWord : HostReq → OpWord
  | .access we num wdata => .host we num wdata
  | .rst => .rst true

/-- The decoded operation, if there is one. -/
def decodedInstr (d : Decoded) : Option Instr :=
  match d with
  | .ok i _ => some i
  | .reject _ => none

/-- The word the agent `t` presents in `s`, if it presents one. -/
def State.wordFor (s : State) (t : Turn) : Option OpWord :=
  match t with
  | .parser => some s.parserWord
  | .source => s.env.source.head?.map fun b => .beat b.kind b.data
  | .host => s.env.host.head?.map hostWord
  | .item => s.itemKind.map fun k => .wire k s.pending
  | .field => s.fieldKind.map fun k => .wire k s.pending

/-- What the agent's turn itself uses up: the turn; a beat once it is accepted (R292: until then SOURCE holds it); a host
request. -/
def State.spend (P : Params) (s : State) (t : Turn) : State :=
  match t with
  | .parser | .item | .field => s.popTurn
  | .source => if s.sourceReady P then s.popTurn.popSource else s.popTurn
  | .host => s.popTurn.popHost

/-- The operation of this step, if there is one. -/
def State.fetch (P : Params) (s : State) : Option Instr := (s.wordFor (s.turn P)).bind fun w => decodedInstr (decode w)

/-- One step of one agent, `ex` being what an operation does: the agent whose turn it is performs the operation its word
selects; where it has none, only the turn is spent (00_scope R10, R14; log 6). -/
def turnStep (P : Params) (ex : Instr → State → Out) (s : State) : Out :=
  match s.fetch P with
  | some i => ex i (s.spend P (s.turn P))
  | none => .next (s.spend P (s.turn P))

/-! ## Placing a word -/

/-- Puts PARSER where it starts reading the wire item `k`. -/
def State.atItem (s : State) (k : WireKind) : State :=
  match k with
  | .header | .headerVersion => { s with st := .hdrDec, fld := .version, cnt := 0 }
  | .headerDeviceId => { s with st := .hdrDec, fld := .deviceId, cnt := 0 }
  | .headerPayloadLen => { s with st := .hdrDec, fld := .payloadLen, cnt := 0 }
  | .record | .recordCommandId => { s with st := .payDec, fld := .commandId, cnt := 0, ri := 0, plen := 1 }
  | .recordLength => { s with st := .payDec, fld := .length, cnt := 0 }
  | .recordData l => { s with st := .payDec, fld := .data, cnt := 0, rlen := l }

/-- The turn that reads the wire item `k`. -/
def wireTurn (k : WireKind) : Turn :=
  match k with
  | .header | .record => .item
  | .headerVersion | .headerDeviceId | .headerPayloadLen | .recordCommandId | .recordLength | .recordData _ => .field

/-- The agent `t` moves next. -/
def State.pushTurn (s : State) (t : Turn) : State := { s with env := { s.env with turns := t :: s.env.turns } }

/-- `w` placed where its agent presents it, and that agent's turn next: a control word in `st`, `fld` and the registers its
guards compare, a beat in SOURCE's hands, a host request in HOST's, wire bytes at the cursor (log 13). -/
def State.place (s : State) (w : OpWord) : State :=
  match w with
  | .wire k bs => State.pushTurn { s.atItem k with buf := bs ++ s.buf } (wireTurn k)
  | .step cw ri plen cnt rlen =>
      match stOfCode (cw.toNat / 8), fieldOfCode (cw.toNat % 8) with
      | some st, some fld =>
          State.pushTurn { s with st := st, fld := fld, ri := ri, plen := plen, cnt := cnt, rlen := rlen } .parser
      | _, _ => s.pushTurn .parser
  | .beat k d => State.pushTurn { s with env := { s.env with source := ⟨k, d⟩ :: s.env.source } } .source
  | .host we num wdata =>
      State.pushTurn { s with env := { s.env with host := .access we num wdata :: s.env.host } } .host
  | .rst true => State.pushTurn { s with env := { s.env with host := .rst :: s.env.host } } .host
  | .rst false => s

end Sys2Proof.Machine
end

