-- ==== Sys2Proof/Machine/Step.lean ====
section
/-! DEFINITION. The step of this hardware, and a word placed where it fetches. -/

namespace Sys2Proof.Machine

open Sys2Proof

/-- One step of one agent, at this hardware's parameters. -/
def step (s : State) : Host.Outcome State Fault Refusal := turnStep Config.hardware exec s

/-- `s` with a bare word of the opcode table placed for the next step (log 13). -/
def State.withFetchWord (s : State) (nbits w : Nat) : State := s.place (tableWord nbits w)

end Sys2Proof.Machine
end

