-- ==== Sys2Proof/Machine/Parametric.lean ====
section
/-! DEFINITION. The machine with the parameters of 00_scope R6 as an argument of its step relation (10_state R49). `exec` and
`step` are this machine at `Config.hardware` (Sys2Proof.Laws.Parametric). -/

namespace Sys2Proof.Machine

open Sys2Proof

/-- What each operation does under the parameters `P`. -/
def execWith (P : Params) (i : Instr) (s : State) : Out :=
  match i with
  | .header v d p => execHeader v d p s
  | .headerVersion v => execHeaderVersion v s
  | .headerDeviceId d => execHeaderDeviceId d s
  | .headerPayloadLen p => execHeaderPayloadLen p s
  | .record c l d => execRecordWith P c l d s
  | .recordCommandId c => execRecordCommandId c s
  | .recordLength l => execRecordLength l s
  | .recordData d => execRecordData d s
  | .peekHdr => execPeekHdr s
  | .hdrVersion => execHdrVersion s
  | .hdrDeviceId => execHdrDeviceId s
  | .hdrPayloadLen => execHdrPayloadLen s
  | .peekPay => execPeekPayWith P s
  | .assemble => execAssemble s
  | .recCommandId => execRecCommandId s
  | .recLength => execRecLength s
  | .recData => execRecData s
  | .recCommit => execRecCommitWith P s
  | .srcData b => execSrcDataWith P b s
  | .srcEos => execSrcEos s
  | .srcErr c => execSrcErrWith P c s
  | .srcReserved => execSrcReserved s
  | .start w => execStart w s
  | .wrregRecSel w => execWrregRecSel w s
  | .wrregRecOff w => execWrregRecOff w s
  | .rdregCtrl => execRdregCtrl s
  | .rdregStatus => execRdregStatus s
  | .rdregErr => execRdregErr s
  | .rdregHdrVersion => execRdregHdrVersion s
  | .rdregHdrDeviceId => execRdregHdrDeviceId s
  | .rdregHdrPayloadLen => execRdregHdrPayloadLen s
  | .rdregRecCount => execRdregRecCount s
  | .rdregRecSel => execRdregRecSel s
  | .rdregRecCmd => execRdregRecCmd s
  | .rdregRecLen => execRdregRecLen s
  | .rdregRecOff => execRdregRecOff s
  | .rdregRecData => execRdregRecData s
  | .rdregReserved n => execRdregReserved n s
  | .reset => execReset s

/-- One step of one agent under the parameters `P` (R49). -/
def stepWith (P : Params) (s : State) : Out := turnStep P (execWith P) s

/-- The machine with the parameters `P`. -/
def machineWith (P : Params) : Host.Core where
  State := State
  Fault := Fault
  Refusal := Refusal
  step := stepWith P
  reset := State.reset

end Sys2Proof.Machine
end

