-- ==== Sys2Proof/Machine/FunctionForm.lean ====
section
/-! DEFINITION. The whole decode as a function of the stream: `decodeRecords` (42_record_decoder R181), `decodeFrame`
(43_frame_assembler R196, R197), the reference encoder `enc` (30_encoding R112), the step count (R201), and what a decode
under way will come to. No step uses them; claims do. -/

namespace Sys2Proof.Machine

open Sys2Proof

/-! ## Shortfalls -/

/-- What a shortfall of a consuming read gives: `e` when the stream closed, the bare I/O error when it failed, nothing while
it is open (R137, R181). -/
def shortfall (t : Term) (e : Err) : Option Err :=
  match t with
  | .eos => some e
  | .ioErr c => some (.ioError c)
  | .opened => none

/-- The nested cause a checkpoint wraps (R196). -/
def termCause (t : Term) : Option Cause :=
  match t with
  | .eos => some .endOfStream
  | .ioErr c => some (.ioError c)
  | .opened => none

/-! ## The record sequence (R181) -/

/-- What decoding records comes to: the records and the bytes left, an error, or a hang. -/
inductive RecordsOutcome where
  | ok (recs : List Record) (rest : List Byte)
  | fail (e : Err)
  | hang
deriving DecidableEq, Repr

/-- `Fail1(i, f)` (R181). -/
def fail1 (t : Term) (i : U16) (f : Fld) : RecordsOutcome :=
  match shortfall t (.malformedRecord i f) with
  | some e => .fail e
  | none => .hang

/-- A record before those of the outcome. -/
def consRecord (r : Record) (o : RecordsOutcome) : RecordsOutcome :=
  match o with
  | .ok rs rest => .ok (r :: rs) rest
  | .fail e => .fail e
  | .hang => .hang

/-- `decodeRecords(B, T, count)`, the first record having index `i` (R181). -/
def decodeRecords (t : Term) : Nat → U16 → List Byte → RecordsOutcome
  | 0, _, bs => .ok [] bs
  | n + 1, i, bs =>
    match bs with
    | [] => fail1 t i .commandId
    | c :: l1 :: l0 :: rest =>
      if rest.length < (u16 [l1, l0]).toNat then fail1 t i .data
      else
        consRecord ⟨c, u16 [l1, l0], rest.take (u16 [l1, l0]).toNat⟩
          (decodeRecords t n (i + 1) (rest.drop (u16 [l1, l0]).toNat))
    | _ => fail1 t i .length

/-! ## The frame (R196, R197): the result and the bytes consumed; none is a hang (R200) -/

/-- The frame of a header, of `pre` and the records to come, out of `n` bytes. -/
def frameOf (h : Header) (pre : List Record) (n : Nat) (o : RecordsOutcome) : Option (Result × Nat) :=
  match o with
  | .ok rs rest => some (.ok ⟨h, pre ++ rs⟩, n - rest.length)
  | .fail e => some (.err e, n)
  | .hang => none

/-- From the payload checkpoint on. -/
def decodePayload (P : Params) (t : Term) (h : Header) (bs : List Byte) : Option (Result × Nat) :=
  if bs.length < P.paywin h.payloadLen then (termCause t).map fun c => (.err (.dataLengthError c), 0)
  else frameOf h [] bs.length (decodeRecords t h.payloadLen.toNat 0 bs)

/-- `n` bytes more were consumed. -/
def moreConsumed (n : Nat) (o : Option (Result × Nat)) : Option (Result × Nat) := o.map fun p => (p.1, p.2 + n)

/-- `decodeFrame(B, T)` (R196). -/
def decodeFrame (P : Params) (t : Term) (bs : List Byte) : Option (Result × Nat) :=
  if bs.length < Config.headerBytes then (termCause t).map fun c => (.err (.headerFormatError c), 0)
  else
    moreConsumed 8
      (decodePayload P t
        ⟨u16 (bs.take 2), u32 ((bs.drop 2).take 4), u16 ((bs.drop 6).take 2)⟩ (bs.drop 8))

/-! ## The reference encoder (R112) -/

/-- `encR(r)` (R112). -/
def encRecord (r : Record) : List Byte := wireBytes (.record r.commandId r.length r.data)

/-- `enc(F)` (R112). -/
def encFrame (f : Frame) : List Byte :=
  wireBytes (.header f.header.version f.header.deviceId f.header.payloadLen) ++ f.records.flatMap encRecord

/-- A well-formed frame term (R110). -/
def Frame.wf (f : Frame) : Bool :=
  f.records.length == f.header.payloadLen.toNat && f.records.all Record.wf

/-- The PARSER steps of a successful decode (R201). -/
def stepCount (f : Frame) : Nat := 1 + 8 + 1 + (f.records.map fun r => 1 + 2 + r.length.toNat + 1).sum + 1

/-! ## A decode under way -/

/-- How the stream SOURCE will deliver ends, once its leading DATA beats are sent: a reserved beat is never accepted (R133),
and with no terminator the stream stays open. -/
def beatsEnd (P : Params) : List Beat → Term
  | [] => .opened
  | b :: bs =>
    match b.kind.toNat with
    | 0 => beatsEnd P bs
    | 1 => .eos
    | 2 => .ioErr (P.code b.data)
    | _ => .opened

/-- The terminator behind the stream at the cursor. -/
def State.streamEnd (P : Params) (s : State) : Term := if s.term = .opened then beatsEnd P s.env.source else s.term

/-- An integer field of which `k` bytes are still to come, `a` accumulated, then `next` (R94, R137). -/
def intThen (t : Term) (e : Err) (a : U32) (k : Nat) (bs : List Byte)
    (next : U32 → List Byte → Option (Result × Nat)) : Option (Result × Nat) :=
  if bs.length < k then (shortfall t e).map fun e' => (.err e', bs.length)
  else moreConsumed k (next (a * BitVec.ofNat 32 (256 ^ k) + u32 (bs.take k)) (bs.drop k))

/-- From the PayloadLen field on. -/
def fromPayloadLen (P : Params) (t : Term) (v : U16) (d : U32) (a : U32) (k : Nat) (bs : List Byte) : Option (Result × Nat) :=
  intThen t (.malformedHeader .payloadLen) a k bs fun p rest => decodePayload P t ⟨v, d, p.setWidth 16⟩ rest

/-- From the DeviceID field on. -/
def fromDeviceId (P : Params) (t : Term) (v : U16) (a : U32) (k : Nat) (bs : List Byte) : Option (Result × Nat) :=
  intThen t (.malformedHeader .deviceId) a k bs fun d rest => fromPayloadLen P t v d 0 2 rest

/-- From the Version field on. -/
def fromVersion (P : Params) (t : Term) (a : U32) (k : Nat) (bs : List Byte) : Option (Result × Nat) :=
  intThen t (.malformedHeader .version) a k bs fun v rest => fromDeviceId P t (v.setWidth 16) 0 4 rest

/-- From the Data field on, `k` data bytes still to come. -/
def State.fromData (s : State) (t : Term) (l : U16) (dat : List Byte) (k : Nat) (bs : List Byte) : Option (Result × Nat) :=
  if bs.length < k then (shortfall t (.malformedRecord s.ri .data)).map fun e => (.err e, bs.length)
  else
    moreConsumed k
      (frameOf ⟨s.ver, s.dev, s.plen⟩ (s.recs ++ [⟨s.cid, l, dat ++ bs.take k⟩]) (bs.length - k)
        (decodeRecords t (s.plen.toNat - (s.ri.toNat + 1)) (s.ri + 1) (bs.drop k)))

/-- What the decode under way comes to on the stream SOURCE holds: the result and the bytes it still consumes. -/
def State.remaining (P : Params) (s : State) (t : Term) (bs : List Byte) : Option (Result × Nat) :=
  match s.st with
  | .idle => none
  | .awaitHdr => decodeFrame P t bs
  | .hdrDec =>
    match s.fld with
    | .version => fromVersion P t s.acc (2 - s.cnt.toNat) bs
    | .deviceId => fromDeviceId P t s.ver s.acc (4 - s.cnt.toNat) bs
    | .payloadLen => fromPayloadLen P t s.ver s.dev s.acc (2 - s.cnt.toNat) bs
    | .commandId | .length | .data => none
  | .awaitPay => decodePayload P t ⟨s.ver, s.dev, s.plen⟩ bs
  | .payDec =>
    match s.fld with
    | .commandId =>
      frameOf ⟨s.ver, s.dev, s.plen⟩ s.recs bs.length (decodeRecords t (s.plen.toNat - s.ri.toNat) s.ri bs)
    | .length =>
      intThen t (.malformedRecord s.ri .length) s.acc (2 - s.cnt.toNat) bs fun l rest =>
        s.fromData t (l.setWidth 16) [] (l.setWidth 16).toNat rest
    | .data => s.fromData t s.rlen s.dat (s.rlen.toNat - s.cnt.toNat) bs
    | .version | .deviceId | .payloadLen => none
  | .done => some (.ok ⟨⟨s.ver, s.dev, s.plen⟩, s.recs⟩, 0)
  | .failed => s.err.map fun e => (.err e, 0)

/-- The forecast of a decode: its result and the cursor at its end, if SOURCE delivers what it holds (R77). -/
def State.forecast (P : Params) (s : State) : Option (Result × Nat) :=
  moreConsumed s.pos (s.remaining P (s.streamEnd P) s.pending)

end Sys2Proof.Machine
end

