-- ==== Sys2Proof/Safety.lean ====
section
/-! DEFINITION. What counts as a state of a good run: the invariants of 10_state R47 with what makes them inductive, and the
operations by agent. -/

namespace Sys2Proof.Machine

open Sys2Proof

/-- Bytes of the header still to be taken in HDR_DEC (R150). -/
def State.headerLeft (s : State) : Nat :=
  match s.fld with
  | .version => 8 - s.cnt.toNat
  | .deviceId => 6 - s.cnt.toNat
  | .payloadLen => 2 - s.cnt.toNat
  | .commandId | .length | .data => 0

/-- The invariant of R47, clauses (a) to (f), with R25 for the accumulator, R159 for the header bytes still buffered, and
the emptiness of `RECS` and `dat` before the records, which R220 and R174 give. Clause (g) is in the types. -/
structure State.Inv (P : Params) (s : State) : Prop where
  /-- R47 (a) -/
  bufBound : P.holds s.buf.length = true
  /-- R47 (b): the records so far -/
  payRecs : s.st = .payDec → s.recs.length = s.ri.toNat ∧ s.ri.toNat ≤ s.plen.toNat
  /-- R47 (b): `|Data| = Length` -/
  recsWf : ∀ r ∈ s.recs, r.data.length = r.length.toNat
  /-- R101, R171: past the CommandID field a record is owed -/
  payOwed : s.st = .payDec → s.fld ≠ .commandId → s.ri.toNat < s.plen.toNat
  /-- R101: only record fields in PAY_DEC -/
  payFld : s.st = .payDec → s.fld = .commandId ∨ s.fld = .length ∨ s.fld = .data
  /-- R47 (c), in the Data field -/
  payData : s.st = .payDec → s.fld = .data → s.dat.length = s.cnt.toNat ∧ s.cnt.toNat ≤ s.rlen.toNat
  /-- R47 (c), before the Data field -/
  payBefore : s.st = .payDec → s.fld ≠ .data → s.cnt.toNat < s.fieldWidth s.fld ∧ s.dat = []
  /-- R47 (d) -/
  hdrFld : s.st = .hdrDec →
    (s.fld = .version ∨ s.fld = .deviceId ∨ s.fld = .payloadLen) ∧ s.cnt.toNat < s.fieldWidth s.fld
  /-- R25: the accumulator holds at most the bytes read -/
  accBound : s.st = .hdrDec ∨ (s.st = .payDec ∧ s.fld = .length) → s.acc.toNat < 256 ^ s.cnt.toNat
  /-- R159: the header bytes still to be read are buffered -/
  hdrBuffered : s.st = .hdrDec → s.headerLeft ≤ s.buf.length
  /-- R220: nothing decoded before the payload checkpoint -/
  freshRecs : s.st = .awaitHdr ∨ s.st = .hdrDec ∨ s.st = .awaitPay → s.recs = [] ∧ s.dat = []
  /-- R47 (e) -/
  doneCount : s.st = .done → s.recs.length = s.plen.toNat
  /-- R47 (e), (f) -/
  errIff : s.st = .failed ↔ s.err ≠ none

/-- PARSER's and the wire rows' operations: they step the decode (R8). -/
def isParserInstr (i : Instr) : Bool :=
  match instrFormat i with
  | .wire => true
  | .step => true
  | .beat => false
  | .host => false

/-- The operations after which another decode may be under way: START and RESET (R220, R224). -/
def beginsAnew (i : Instr) : Bool :=
  match i with
  | .start _ => true
  | .reset => true
  | .header _ _ _ | .headerVersion _ | .headerDeviceId _ | .headerPayloadLen _
  | .record _ _ _ | .recordCommandId _ | .recordLength _ | .recordData _
  | .peekHdr | .hdrVersion | .hdrDeviceId | .hdrPayloadLen | .peekPay | .assemble
  | .recCommandId | .recLength | .recData | .recCommit
  | .srcData _ | .srcEos | .srcErr _ | .srcReserved
  | .wrregRecSel _ | .wrregRecOff _ | .rdregCtrl | .rdregStatus | .rdregErr
  | .rdregHdrVersion | .rdregHdrDeviceId | .rdregHdrPayloadLen | .rdregRecCount | .rdregRecSel
  | .rdregRecCmd | .rdregRecLen | .rdregRecOff | .rdregRecData | .rdregReserved _ => false

end Sys2Proof.Machine
end

