-- ==== Sys2Proof/Certificates/Slice0/Obligations.lean ====
section
/-! DEFINITION. The statements for the provers. Each docstring names the rules of spec/ it formalises. -/

open Sys2Proof Sys2Proof.Machine

/-! ## Encoding -/

/-- R112, R107: every well-formed operation is read back from its word, and a wire item is read back whatever bytes follow
it. -/
def Obligations.DecodeOfEncode : Prop :=
  (∀ i, WellFormed i = true → decode (encode i) = .ok i []) ∧
  (∀ i k bs tail, WellFormed i = true → encode i = .wire k bs → decode (.wire k (bs ++ tail)) = .ok i tail)

/-- R94, R95, R112: what is read from wire bytes, followed by what is left, is those bytes; the item is well formed and
encodes to the bytes it was read from. -/
def Obligations.WireDecodeKeepsEveryByte : Prop :=
  ∀ k bs i rest, decode (.wire k bs) = .ok i rest →
    wireBytes i ++ rest = bs ∧ WellFormed i = true ∧ encode i = .wire k (wireBytes i)

/-- R96: every 8-byte string is a Header and every 3-byte string followed by Length bytes is a Record; bytes fail to be an
item only by being fewer than the item of that kind needs. -/
def Obligations.EveryBitPatternDecodes : Prop :=
  (∀ bs : List Byte, bs.length = 8 → ∃ v d p, decode (.wire .header bs) = .ok (.header v d p) []) ∧
  (∀ (c l1 l0 : Byte) (d : List Byte), d.length = l1.toNat * 256 + l0.toNat →
    ∃ l : U16, l.toNat = d.length ∧ decode (.wire .record (c :: l1 :: l0 :: d)) = .ok (.record c l d) []) ∧
  (∀ k bs r, decode (.wire k bs) = .reject r → r = .truncated ∧
    (k = .header → bs.length < 8) ∧
    (k = .headerVersion ∨ k = .headerPayloadLen ∨ k = .recordLength → bs.length < 2) ∧
    (k = .headerDeviceId → bs.length < 4) ∧
    (k = .recordCommandId → bs = []) ∧
    (∀ n, k = .recordData n → bs.length < n.toNat) ∧
    (k = .record → bs.length < 3 ∨
      ∃ c l1 l0 d, bs = c :: l1 :: l0 :: d ∧ d.length < l1.toNat * 256 + l0.toNat))

/-- R100, R101: the control word, and the step decode table over every control word and every value its guards compare:
each row's step is selected exactly by that row's match, mask and guard, no other operation is a step, and IDLE, DONE and
FAILED have none. -/
def Obligations.StepTableSelects : Prop :=
  (∀ s : State, s.cw.toNat = 8 * s.st.code.toNat + (fieldCode s.fld).toNat) ∧
  ∀ (cw : BitVec 6) (ri plen cnt rlen : U16),
    (∀ i rest, decode (.step cw ri plen cnt rlen) = .ok i rest → instrFormat i = .step ∧ rest = []) ∧
    (cw >>> 3 = 0 ∨ cw >>> 3 = 5 ∨ cw >>> 3 = 6 → decode (.step cw ri plen cnt rlen) = .reject .noParserStep) ∧
    (decode (.step cw ri plen cnt rlen) = .ok .peekHdr [] ↔ cw &&& 0x38 = 0x08) ∧
    (decode (.step cw ri plen cnt rlen) = .ok .hdrVersion [] ↔ cw = 0x10) ∧
    (decode (.step cw ri plen cnt rlen) = .ok .hdrDeviceId [] ↔ cw = 0x11) ∧
    (decode (.step cw ri plen cnt rlen) = .ok .hdrPayloadLen [] ↔ cw = 0x12) ∧
    (decode (.step cw ri plen cnt rlen) = .ok .peekPay [] ↔ cw &&& 0x38 = 0x18) ∧
    (decode (.step cw ri plen cnt rlen) = .ok .assemble [] ↔ cw = 0x23 ∧ ri = plen) ∧
    (decode (.step cw ri plen cnt rlen) = .ok .recCommandId [] ↔ cw = 0x23 ∧ ri.toNat < plen.toNat) ∧
    (decode (.step cw ri plen cnt rlen) = .ok .recLength [] ↔ cw = 0x24) ∧
    (decode (.step cw ri plen cnt rlen) = .ok .recData [] ↔ cw = 0x25 ∧ cnt.toNat < rlen.toNat) ∧
    (decode (.step cw ri plen cnt rlen) = .ok .recCommit [] ↔ cw = 0x25 ∧ cnt = rlen)

/-- R98, R99: the codes of `st` and of `fld` and the widths of the fields, as the two tables give them. -/
def Obligations.CodesOfStAndFld : Prop :=
  [St.idle, .awaitHdr, .hdrDec, .awaitPay, .payDec, .done, .failed].map (fun x => x.code.toNat) = [0, 1, 2, 3, 4, 5, 6] ∧
  [Fld.version, .deviceId, .payloadLen, .commandId, .length, .data].map (fun x => (fieldCode x).toNat) = [0, 1, 2, 3, 4, 5] ∧
  ∀ s : State, [Fld.version, .deviceId, .payloadLen, .commandId, .length, .data].map s.fieldWidth =
    [2, 4, 2, 1, 2, s.rlen.toNat]

/-- Words written out from the tables of R91, R92, R100, R105, R106 and the vectors D-H6, D-R1, S7 are read as the
operations they stand for. -/
def Obligations.SpecWordsDecode : Prop :=
  decode (.wire .header [0x12, 0x34, 0x56, 0x78, 0x9A, 0xBC, 0x00, 0x00]) = .ok (.header 4660 1450744508 0) [] ∧
  decode (.wire .record [0x07, 0x00, 0x02, 0xAA, 0xBB, 0x09]) = .ok (.record 7 2 [0xAA, 0xBB]) [0x09] ∧
  decode (.step 0b001000 0 0 0 0) = .ok .peekHdr [] ∧
  decode (.step 0b011010 0 0 0 0) = .ok .peekPay [] ∧
  decode (.step 0b100011 1 2 0 0) = .ok .recCommandId [] ∧
  decode (.beat 0b10 0x2A) = .ok (.srcErr 0x2A) [] ∧
  decode (.host true 0b1010 0xFFFFFFFF) = .ok (.wrregRecOff 0xFFFFFFFF) [] ∧
  decode (.host false 0b0001 0) = .ok .rdregStatus []

/-! ## Steps -/

/-- R10, R100, R105, R106: a step runs the operation its agent's word decodes to. The turn at the head of the schedule is
spent (log 1); a beat leaves SOURCE's hands when it is accepted, and is held otherwise (R133, R292); a host request is used
up; a wire item is read from the stream at the cursor (log 5). R6, R49: the parameters are an argument of the step, and this
hardware's step is the one at its values. -/
def Obligations.StepRunsDecoded : Prop :=
  (∀ i s, exec i s = execWith Config.hardware i s) ∧ (∀ s, step s = stepWith Config.hardware s) ∧
  ∀ (s : State) (t : Turn) (ts : List Turn) (i : Instr) (rest : List Byte), s.env.turns = t :: ts →
    (t = .parser → decode (.step s.cw s.ri s.plen s.cnt s.rlen) = .ok i rest →
      step s = exec i { s with env := { s.env with turns := ts } }) ∧
    (∀ b bs, t = .source → s.env.source = b :: bs → decode (.beat b.kind b.data) = .ok i rest →
      step s = exec i { s with env := { s.env with
        turns := ts, source := if s.inReady Config.hardware b.kind = true then bs else b :: bs } }) ∧
    (∀ we num wdata qs, t = .host → s.env.host = .access we num wdata :: qs →
      decode (.host we num wdata) = .ok i rest →
      step s = exec i { s with env := { s.env with turns := ts, host := qs } }) ∧
    (∀ qs, t = .host → s.env.host = .rst :: qs →
      step s = exec .reset { s with env := { s.env with turns := ts, host := qs } }) ∧
    (∀ k, t = .item → s.itemKind = some k → decode (.wire k s.pending) = .ok i rest →
      step s = exec i { s with env := { s.env with turns := ts } }) ∧
    (∀ k, t = .field → s.fieldKind = some k → decode (.wire k s.pending) = .ok i rest →
      step s = exec i { s with env := { s.env with turns := ts } })

/-- R14: an agent without an operation takes no step; only its turn is spent, and a host access that selects none is used up
(log 6). An item or field turn has none when no item starts at the cursor or its bytes are not all there (log 5). -/
def Obligations.TurnWithoutOperationChangesNothing : Prop :=
  ∀ (s : State) (ts : List Turn),
    (∀ r, s.env.turns = .parser :: ts → decode (.step s.cw s.ri s.plen s.cnt s.rlen) = .reject r →
      step s = .next { s with env := { s.env with turns := ts } }) ∧
    (s.env.turns = .source :: ts → s.env.source = [] →
      step s = .next { s with env := { s.env with turns := ts } }) ∧
    (s.env.turns = .host :: ts → s.env.host = [] →
      step s = .next { s with env := { s.env with turns := ts } }) ∧
    (∀ q qs r, s.env.turns = .host :: ts → s.env.host = q :: qs → decode (hostWord q) = .reject r →
      step s = .next { s with env := { s.env with turns := ts, host := qs } }) ∧
    (s.env.turns = .item :: ts → s.itemKind = none →
      step s = .next { s with env := { s.env with turns := ts } }) ∧
    (∀ k r, s.env.turns = .item :: ts → s.itemKind = some k → decode (.wire k s.pending) = .reject r →
      step s = .next { s with env := { s.env with turns := ts } }) ∧
    (s.env.turns = .field :: ts → s.fieldKind = none →
      step s = .next { s with env := { s.env with turns := ts } }) ∧
    (∀ k r, s.env.turns = .field :: ts → s.fieldKind = some k → decode (.wire k s.pending) = .reject r →
      step s = .next { s with env := { s.env with turns := ts } })

/-- R295, and the model's default order (log 15), for every value of the parameters: with an empty schedule PARSER moves when
its step is enabled; else SOURCE when its beat is accepted; else HOST when it has a request, whether SOURCE holds no beat or
one that is not accepted; else it is PARSER's turn. -/
def Obligations.DefaultOrderOfTurns : Prop :=
  ∀ (P : Params) (s : State), s.env.turns = [] →
    (s.sourceReady P = true ↔ ∃ b bs, s.env.source = b :: bs ∧ s.inReady P b.kind = true) ∧
    (s.parserReady P = true → s.turn P = .parser) ∧
    (s.parserReady P = false → s.sourceReady P = true → s.turn P = .source) ∧
    (∀ q qs, s.parserReady P = false → s.sourceReady P = false → s.env.host = q :: qs → s.turn P = .host) ∧
    (s.parserReady P = false → s.sourceReady P = false → s.env.host = [] → s.turn P = .parser)

/-- R100, R156, R177 (log 15): PARSER's step counts as enabled exactly when taking it changes the state; under a bounded
`STORE` also when it is a commit that is refused (log 26). -/
def Obligations.EnabledParserStepChangesState : Prop :=
  (∀ s : State, s.rstSeen = true →
    (s.parserReady Config.hardware = true ↔
      ∃ i rest t, decode (.step s.cw s.ri s.plen s.cnt s.rlen) = .ok i rest ∧ exec i s = .next t ∧ t ≠ s)) ∧
  (∀ (P : Params) (s : State), s.rstSeen = true →
    (s.parserReady P = true ↔
      ∃ i rest, decode (.step s.cw s.ri s.plen s.cnt s.rlen) = .ok i rest ∧
        ((∃ t, execWith P i s = .next t ∧ t ≠ s) ∨ execWith P i s = .refused .storeFull)))

/-! ## Reset -/

/-- R48, R283: after RESET every piece of state has its reset value, every flag and every host register reads 0, and every
beat kind but the reserved one is accepted; before the first reset no operation but RESET has a step and there is no Result.
That RESET leaves what the agents around the block hold is the model's choice (log 17); that the block before its first reset
is a state with a flag is its form (log 7). -/
def Obligations.ResetLeavesEveryResetValue : Prop :=
  (∀ s : State, ∃ t, exec .reset s = .next t ∧ t = { State.reset with env := s.env } ∧
    t.buf = [] ∧ t.term = .opened ∧ t.pos = 0 ∧ t.st = .idle ∧ t.fld = .version ∧ t.cnt = 0 ∧ t.acc = 0 ∧
    t.ver = 0 ∧ t.dev = 0 ∧ t.plen = 0 ∧ t.ri = 0 ∧ t.cid = 0 ∧ t.rlen = 0 ∧ t.dat = [] ∧ t.recs = [] ∧
    t.err = none ∧ t.recSel = 0 ∧ t.recOff = 0 ∧
    t.busy = false ∧ t.isDone = false ∧ t.isFailed = false ∧
    (∀ n, t.regRead n = 0) ∧ (∀ k, k ≠ 3 → t.inReady Config.hardware k = true)) ∧
  (∀ i s t, s.rstSeen = false → i ≠ .reset → exec i s ≠ .next t) ∧
  (∀ s : State, s.rstSeen = false → s.result = none)

/-! ## The reader -/

/-- R64, R66: PeekOutcome tests availability first and the terminator second; ReadByteOutcome gives the head of the buffer
and looks at the terminator only when the buffer is empty. -/
def Obligations.ReaderOutcomesTestBytesFirst : Prop :=
  ∀ (s : State) (n : Nat),
    (n ≤ s.buf.length → s.peekOutcome n = .ok) ∧
    (s.buf.length < n → s.term = .eos → s.peekOutcome n = .endOfStream) ∧
    (∀ c, s.buf.length < n → s.term = .ioErr c → s.peekOutcome n = .ioError c) ∧
    (s.buf.length < n → s.term = .opened → s.peekOutcome n = .wait) ∧
    (∀ b bs, s.buf = b :: bs → s.readByteOutcome = .byte b) ∧
    (s.buf = [] → s.term = .eos → s.readByteOutcome = .short) ∧
    (∀ c, s.buf = [] → s.term = .ioErr c → s.readByteOutcome = .ioFail c) ∧
    (s.buf = [] → s.term = .opened → s.readByteOutcome = .wait)

/-- R130: SRC.DATA appends its byte while the stream is open and the buffer has room, and otherwise is not accepted; the room
is that of `BUFCAP`, 8 here (R6). -/
def Obligations.SrcDataAppends : Prop :=
  ∀ (s : State) (b : Byte), s.rstSeen = true →
    decode (.beat 0 b) = .ok (.srcData b) [] ∧
    (s.term = .opened → s.buf.length < 8 → exec (.srcData b) s = .next { s with buf := s.buf ++ [b] }) ∧
    (s.term ≠ .opened → exec (.srcData b) s = .next s) ∧
    (8 ≤ s.buf.length → exec (.srcData b) s = .next s) ∧
    ∀ P : Params,
      (s.term = .opened → (∀ c, P.bufcap = some c → s.buf.length < c) →
        execWith P (.srcData b) s = .next { s with buf := s.buf ++ [b] }) ∧
      (s.term ≠ .opened → execWith P (.srcData b) s = .next s) ∧
      (∀ c, P.bufcap = some c → c ≤ s.buf.length → execWith P (.srcData b) s = .next s)

/-- R131, R132: SRC.EOS and SRC.ERR close an open stream whatever the buffer holds, nothing else changes, and STATUS.TERM
shows it; a closed stream stays as it is. A cause code of `IOCODE_W` bits is kept as it is, whatever `IOCODE_W` is (R6). -/
def Obligations.TerminatorBeatsClose : Prop :=
  ∀ (s : State) (d : Byte) (c : IoCode), s.rstSeen = true →
    decode (.beat 1 d) = .ok .srcEos [] ∧
    decode (.beat 2 c) = .ok (.srcErr c) [] ∧
    (s.term = .opened → exec .srcEos s = .next { s with term := .eos }) ∧
    (s.term = .opened → exec (.srcErr c) s = .next { s with term := .ioErr c }) ∧
    (s.term ≠ .opened → exec .srcEos s = .next s ∧ exec (.srcErr c) s = .next s) ∧
    (State.statusImage { s with term := .eos }).extractLsb' 6 2 = 1 ∧
    (State.statusImage { s with term := .ioErr c }).extractLsb' 6 2 = 2 ∧
    ∀ P : Params,
      (s.term = .opened → execWith P .srcEos s = .next { s with term := .eos }) ∧
      (s.term = .opened → c.toNat < 2 ^ P.iocodeW → execWith P (.srcErr c) s = .next { s with term := .ioErr c }) ∧
      (s.term ≠ .opened → execWith P .srcEos s = .next s ∧ execWith P (.srcErr c) s = .next s)

/-- R105, R133: `in_ready`, in every state of the parser, and a beat that is not accepted changes nothing, a beat of the
reserved kind among them; for every value of the parameters, and with this hardware's `BUFCAP` of 8 (R6). -/
def Obligations.AcceptanceOfBeats : Prop :=
  ∀ (s : State) (k : BitVec 2) (d : Byte),
    (s.inReady Config.hardware k = true ↔ s.term = .opened ∧ k ≠ 3 ∧ (k ≠ 0 ∨ s.buf.length < 8)) ∧
    decode (.beat 3 d) = .ok .srcReserved [] ∧
    (s.rstSeen = true → exec .srcReserved s = .next s) ∧
    (∀ i rest, s.rstSeen = true → s.inReady Config.hardware k = false → decode (.beat k d) = .ok i rest →
      exec i s = .next s) ∧
    ∀ P : Params,
      (s.inReady P k = true ↔
        s.term = .opened ∧ k ≠ 3 ∧ (k ≠ 0 ∨ ∀ c, P.bufcap = some c → s.buf.length < c)) ∧
      (∀ i rest, s.rstSeen = true → s.inReady P k = false → decode (.beat k d) = .ok i rest → execWith P i s = .next s)

/-- R65: bytes a peek has seen stay where they are whatever SOURCE does next. -/
def Obligations.PeekedBytesStay : Prop :=
  ∀ (s t : State) (i : Instr) (n : Nat), instrFormat i = .beat → s.peekOutcome n = .ok → exec i s = .next t →
    t.peekOutcome n = .ok ∧ t.buf.take n = s.buf.take n ∧ t.pos = s.pos

/-- R134: PEEK.HDR in each of its four outcomes, on any `fld`. -/
def Obligations.PeekHdrOutcomes : Prop :=
  ∀ s : State, s.rstSeen = true → s.st = .awaitHdr →
    decode (.step s.cw s.ri s.plen s.cnt s.rlen) = .ok .peekHdr [] ∧
    (8 ≤ s.buf.length → exec .peekHdr s = .next { s with st := .hdrDec, fld := .version, cnt := 0, acc := 0 }) ∧
    (s.buf.length < 8 → s.term = .eos →
      exec .peekHdr s = .next { s with st := .failed, err := some (.headerFormatError .endOfStream) }) ∧
    (∀ c, s.buf.length < 8 → s.term = .ioErr c →
      exec .peekHdr s = .next { s with st := .failed, err := some (.headerFormatError (.ioError c)) }) ∧
    (s.buf.length < 8 → s.term = .opened → exec .peekHdr s = .next s)

/-- R135: PEEK.PAY asks for `PAYWIN(PLEN)` bytes, here nothing when no record is owed and one byte otherwise (R6). -/
def Obligations.PeekPayOutcomes : Prop :=
  ∀ s : State, s.rstSeen = true → s.st = .awaitPay →
    decode (.step s.cw s.ri s.plen s.cnt s.rlen) = .ok .peekPay [] ∧
    (s.plen = 0 ∨ s.buf ≠ [] →
      exec .peekPay s = .next { s with st := .payDec, fld := .commandId, cnt := 0, acc := 0, ri := 0 }) ∧
    (s.plen ≠ 0 → s.buf = [] → s.term = .eos →
      exec .peekPay s = .next { s with st := .failed, err := some (.dataLengthError .endOfStream) }) ∧
    (∀ c, s.plen ≠ 0 → s.buf = [] → s.term = .ioErr c →
      exec .peekPay s = .next { s with st := .failed, err := some (.dataLengthError (.ioError c)) }) ∧
    (s.plen ≠ 0 → s.buf = [] → s.term = .opened → exec .peekPay s = .next s) ∧
    ∀ P : Params,
      (P.paywin s.plen ≤ s.buf.length →
        execWith P .peekPay s = .next { s with st := .payDec, fld := .commandId, cnt := 0, acc := 0, ri := 0 }) ∧
      (s.buf.length < P.paywin s.plen → s.term = .eos →
        execWith P .peekPay s = .next { s with st := .failed, err := some (.dataLengthError .endOfStream) }) ∧
      (∀ c, s.buf.length < P.paywin s.plen → s.term = .ioErr c →
        execWith P .peekPay s = .next { s with st := .failed, err := some (.dataLengthError (.ioError c)) }) ∧
      (s.buf.length < P.paywin s.plen → s.term = .opened → execWith P .peekPay s = .next s)

/-! ## The Header Decoder -/

/-- R151: one byte of the Version field. -/
def Obligations.HdrVersionStep : Prop :=
  ∀ s : State, s.rstSeen = true → s.st = .hdrDec → s.fld = .version →
    decode (.step s.cw s.ri s.plen s.cnt s.rlen) = .ok .hdrVersion [] ∧
    (∀ b bs, s.buf = b :: bs → s.cnt.toNat + 1 < 2 → exec .hdrVersion s =
      .next { s with buf := bs, pos := s.pos + 1, acc := s.acc * 256 + b.setWidth 32, cnt := s.cnt + 1 }) ∧
    (∀ b bs, s.buf = b :: bs → 2 ≤ s.cnt.toNat + 1 → exec .hdrVersion s =
      .next { s with
        buf := bs, pos := s.pos + 1, ver := (s.acc * 256 + b.setWidth 32).setWidth 16, fld := .deviceId,
        acc := 0, cnt := 0 }) ∧
    (s.buf = [] → s.term = .eos → exec .hdrVersion s =
      .next { s with st := .failed, err := some (.malformedHeader .version) }) ∧
    (∀ c, s.buf = [] → s.term = .ioErr c → exec .hdrVersion s =
      .next { s with st := .failed, err := some (.ioError c) }) ∧
    (s.buf = [] → s.term = .opened → exec .hdrVersion s = .next s)

/-- R152: one byte of the DeviceID field. -/
def Obligations.HdrDeviceIdStep : Prop :=
  ∀ s : State, s.rstSeen = true → s.st = .hdrDec → s.fld = .deviceId →
    decode (.step s.cw s.ri s.plen s.cnt s.rlen) = .ok .hdrDeviceId [] ∧
    (∀ b bs, s.buf = b :: bs → s.cnt.toNat + 1 < 4 → exec .hdrDeviceId s =
      .next { s with buf := bs, pos := s.pos + 1, acc := s.acc * 256 + b.setWidth 32, cnt := s.cnt + 1 }) ∧
    (∀ b bs, s.buf = b :: bs → 4 ≤ s.cnt.toNat + 1 → exec .hdrDeviceId s =
      .next { s with
        buf := bs, pos := s.pos + 1, dev := s.acc * 256 + b.setWidth 32, fld := .payloadLen,
        acc := 0, cnt := 0 }) ∧
    (s.buf = [] → s.term = .eos → exec .hdrDeviceId s =
      .next { s with st := .failed, err := some (.malformedHeader .deviceId) }) ∧
    (∀ c, s.buf = [] → s.term = .ioErr c → exec .hdrDeviceId s =
      .next { s with st := .failed, err := some (.ioError c) }) ∧
    (s.buf = [] → s.term = .opened → exec .hdrDeviceId s = .next s)

/-- R153: one byte of the PayloadLen field; the last one enters AWAIT_PAY and leaves `fld` at PAYLOADLEN. -/
def Obligations.HdrPayloadLenStep : Prop :=
  ∀ s : State, s.rstSeen = true → s.st = .hdrDec → s.fld = .payloadLen →
    decode (.step s.cw s.ri s.plen s.cnt s.rlen) = .ok .hdrPayloadLen [] ∧
    (∀ b bs, s.buf = b :: bs → s.cnt.toNat + 1 < 2 → exec .hdrPayloadLen s =
      .next { s with buf := bs, pos := s.pos + 1, acc := s.acc * 256 + b.setWidth 32, cnt := s.cnt + 1 }) ∧
    (∀ b bs, s.buf = b :: bs → 2 ≤ s.cnt.toNat + 1 → exec .hdrPayloadLen s =
      .next { s with
        buf := bs, pos := s.pos + 1, plen := (s.acc * 256 + b.setWidth 32).setWidth 16, st := .awaitPay,
        acc := 0, cnt := 0 }) ∧
    (s.buf = [] → s.term = .eos → exec .hdrPayloadLen s =
      .next { s with st := .failed, err := some (.malformedHeader .payloadLen) }) ∧
    (∀ c, s.buf = [] → s.term = .ioErr c → exec .hdrPayloadLen s =
      .next { s with st := .failed, err := some (.ioError c) }) ∧
    (s.buf = [] → s.term = .opened → exec .hdrPayloadLen s = .next s)

/-! ## The Record Sequence Decoder -/

/-- R171: the CommandID byte of the record `ri` while one is owed. -/
def Obligations.RecCommandIdStep : Prop :=
  ∀ s : State, s.rstSeen = true → s.st = .payDec → s.fld = .commandId → s.ri.toNat < s.plen.toNat →
    decode (.step s.cw s.ri s.plen s.cnt s.rlen) = .ok .recCommandId [] ∧
    (∀ b bs, s.buf = b :: bs → exec .recCommandId s =
      .next { s with buf := bs, pos := s.pos + 1, cid := b, fld := .length, acc := 0, cnt := 0 }) ∧
    (s.buf = [] → s.term = .eos → exec .recCommandId s =
      .next { s with st := .failed, err := some (.malformedRecord s.ri .commandId) }) ∧
    (∀ c, s.buf = [] → s.term = .ioErr c → exec .recCommandId s =
      .next { s with st := .failed, err := some (.ioError c) }) ∧
    (s.buf = [] → s.term = .opened → exec .recCommandId s = .next s)

/-- R172: one byte of the Length field. -/
def Obligations.RecLengthStep : Prop :=
  ∀ s : State, s.rstSeen = true → s.st = .payDec → s.fld = .length →
    decode (.step s.cw s.ri s.plen s.cnt s.rlen) = .ok .recLength [] ∧
    (∀ b bs, s.buf = b :: bs → s.cnt.toNat + 1 < 2 → exec .recLength s =
      .next { s with buf := bs, pos := s.pos + 1, acc := s.acc * 256 + b.setWidth 32, cnt := s.cnt + 1 }) ∧
    (∀ b bs, s.buf = b :: bs → 2 ≤ s.cnt.toNat + 1 → exec .recLength s =
      .next { s with
        buf := bs, pos := s.pos + 1, rlen := (s.acc * 256 + b.setWidth 32).setWidth 16, fld := .data,
        dat := [], acc := 0, cnt := 0 }) ∧
    (s.buf = [] → s.term = .eos → exec .recLength s =
      .next { s with st := .failed, err := some (.malformedRecord s.ri .length) }) ∧
    (∀ c, s.buf = [] → s.term = .ioErr c → exec .recLength s =
      .next { s with st := .failed, err := some (.ioError c) }) ∧
    (s.buf = [] → s.term = .opened → exec .recLength s = .next s)

/-- R173: one data byte, copied unchanged. -/
def Obligations.RecDataStep : Prop :=
  ∀ s : State, s.rstSeen = true → s.st = .payDec → s.fld = .data → s.cnt.toNat < s.rlen.toNat →
    decode (.step s.cw s.ri s.plen s.cnt s.rlen) = .ok .recData [] ∧
    (∀ b bs, s.buf = b :: bs → exec .recData s =
      .next { s with buf := bs, pos := s.pos + 1, dat := s.dat ++ [b], cnt := s.cnt + 1 }) ∧
    (s.buf = [] → s.term = .eos → exec .recData s =
      .next { s with st := .failed, err := some (.malformedRecord s.ri .data) }) ∧
    (∀ c, s.buf = [] → s.term = .ioErr c → exec .recData s =
      .next { s with st := .failed, err := some (.ioError c) }) ∧
    (s.buf = [] → s.term = .opened → exec .recData s = .next s)

/-- R174, R179: REC.COMMIT stores the record without touching the reader, a record of length 0 included; with
any parameters that meet R6 too, for each of the 65535 records a frame can have. -/
def Obligations.RecCommitStores : Prop :=
  ∀ s : State, s.rstSeen = true → s.st = .payDec → s.fld = .data → s.cnt = s.rlen →
    decode (.step s.cw s.ri s.plen s.cnt s.rlen) = .ok .recCommit [] ∧
    exec .recCommit s = .next { s with
      recs := s.recs ++ [⟨s.cid, s.rlen, s.dat⟩], ri := s.ri + 1, fld := .commandId, cnt := 0, acc := 0, dat := [] } ∧
    ∀ P : Params, P.Legal → s.recs.length < 65535 → execWith P .recCommit s = exec .recCommit s

/-- R192: ASSEMBLE writes `st` only and publishes the frame of VER, DEV, PLEN and RECS. -/
def Obligations.AssemblePublishes : Prop :=
  ∀ s : State, s.rstSeen = true → s.st = .payDec → s.fld = .commandId → s.ri = s.plen →
    decode (.step s.cw s.ri s.plen s.cnt s.rlen) = .ok .assemble [] ∧
    exec .assemble s = .next { s with st := .done } ∧
    State.result { s with st := .done } = some (.ok ⟨⟨s.ver, s.dev, s.plen⟩, s.recs⟩)

/-- R14, R100 (log 8): PARSER's operations outside their `st`, `fld` and data guard change nothing. -/
def Obligations.ParserStepsOutsideTheirGuard : Prop :=
  ∀ s : State, s.rstSeen = true →
    (s.st ≠ .awaitHdr → exec .peekHdr s = .next s) ∧
    (s.st ≠ .awaitPay → exec .peekPay s = .next s) ∧
    (s.st ≠ .hdrDec ∨ s.fld ≠ .version → exec .hdrVersion s = .next s) ∧
    (s.st ≠ .hdrDec ∨ s.fld ≠ .deviceId → exec .hdrDeviceId s = .next s) ∧
    (s.st ≠ .hdrDec ∨ s.fld ≠ .payloadLen → exec .hdrPayloadLen s = .next s) ∧
    (s.st ≠ .payDec ∨ s.fld ≠ .commandId ∨ s.plen.toNat ≤ s.ri.toNat → exec .recCommandId s = .next s) ∧
    (s.st ≠ .payDec ∨ s.fld ≠ .length → exec .recLength s = .next s) ∧
    (s.st ≠ .payDec ∨ s.fld ≠ .data ∨ s.rlen.toNat ≤ s.cnt.toNat → exec .recData s = .next s) ∧
    (s.st ≠ .payDec ∨ s.fld ≠ .data ∨ s.cnt ≠ s.rlen → exec .recCommit s = .next s) ∧
    (s.st ≠ .payDec ∨ s.fld ≠ .commandId ∨ s.ri ≠ s.plen → exec .assemble s = .next s)

/-! ## Wire items -/

/-- R91, R162 (log 5): HEADER at the cursor, in the field values of R162, and each of its three fields at its own. -/
def Obligations.HeaderItemsAreDecoded : Prop :=
  ∀ (s : State) (h0 h1 h2 h3 h4 h5 h6 h7 : Byte) (tail : List Byte), s.rstSeen = true → s.st = .hdrDec → s.cnt = 0 →
    (s.fld = .version → s.pending = [h0, h1, h2, h3, h4, h5, h6, h7] ++ tail →
      exec (.header (BitVec.ofNat 16 (h0.toNat * 256 + h1.toNat))
          (BitVec.ofNat 32 (h2.toNat * 2 ^ 24 + h3.toNat * 2 ^ 16 + h4.toNat * 2 ^ 8 + h5.toNat))
          (BitVec.ofNat 16 (h6.toNat * 256 + h7.toNat))) s =
        .next { s with
          ver := BitVec.ofNat 16 (h0.toNat * 256 + h1.toNat)
          dev := BitVec.ofNat 32 (h2.toNat * 2 ^ 24 + h3.toNat * 2 ^ 16 + h4.toNat * 2 ^ 8 + h5.toNat)
          plen := BitVec.ofNat 16 (h6.toNat * 256 + h7.toNat)
          st := .awaitPay, fld := .payloadLen, acc := 0, cnt := 0
          buf := s.buf.drop 8, pos := s.pos + 8
          env := { s.env with source := s.env.source.drop (8 - s.buf.length) } }) ∧
    (s.fld = .version → s.pending = [h0, h1] ++ tail →
      exec (.headerVersion (BitVec.ofNat 16 (h0.toNat * 256 + h1.toNat))) s =
        .next { s with
          ver := BitVec.ofNat 16 (h0.toNat * 256 + h1.toNat)
          fld := .deviceId, acc := 0, cnt := 0
          buf := s.buf.drop 2, pos := s.pos + 2
          env := { s.env with source := s.env.source.drop (2 - s.buf.length) } }) ∧
    (s.fld = .deviceId → s.pending = [h2, h3, h4, h5] ++ tail →
      exec (.headerDeviceId
          (BitVec.ofNat 32 (h2.toNat * 2 ^ 24 + h3.toNat * 2 ^ 16 + h4.toNat * 2 ^ 8 + h5.toNat))) s =
        .next { s with
          dev := BitVec.ofNat 32 (h2.toNat * 2 ^ 24 + h3.toNat * 2 ^ 16 + h4.toNat * 2 ^ 8 + h5.toNat)
          fld := .payloadLen, acc := 0, cnt := 0
          buf := s.buf.drop 4, pos := s.pos + 4
          env := { s.env with source := s.env.source.drop (4 - s.buf.length) } }) ∧
    (s.fld = .payloadLen → s.pending = [h6, h7] ++ tail →
      exec (.headerPayloadLen (BitVec.ofNat 16 (h6.toNat * 256 + h7.toNat))) s =
        .next { s with
          plen := BitVec.ofNat 16 (h6.toNat * 256 + h7.toNat)
          st := .awaitPay, acc := 0, cnt := 0
          buf := s.buf.drop 2, pos := s.pos + 2
          env := { s.env with source := s.env.source.drop (2 - s.buf.length) } })

/-- R92, R181 (log 5): RECORD at the cursor is committed to the frame store, and each of its three fields goes to its
register. Under a bounded `STORE` a RECORD that does not fit is refused (U8; log 26). -/
def Obligations.RecordItemsAreDecoded : Prop :=
  ∀ (s : State) (c l1 l0 : Byte) (d tail : List Byte), s.rstSeen = true → s.st = .payDec →
    (s.fld = .commandId → s.ri.toNat < s.plen.toNat → d.length = l1.toNat * 256 + l0.toNat →
      s.pending = [c, l1, l0] ++ d ++ tail →
      exec (.record c (BitVec.ofNat 16 (l1.toNat * 256 + l0.toNat)) d) s =
        .next { s with
          recs := s.recs ++ [⟨c, BitVec.ofNat 16 (l1.toNat * 256 + l0.toNat), d⟩]
          cid := c, rlen := BitVec.ofNat 16 (l1.toNat * 256 + l0.toNat), ri := s.ri + 1
          fld := .commandId, acc := 0, cnt := 0, dat := []
          buf := s.buf.drop (3 + d.length), pos := s.pos + (3 + d.length)
          env := { s.env with source := s.env.source.drop (3 + d.length - s.buf.length) } } ∧
      ∀ P : Params,
        ((∀ r n, P.store = .bounded r n → s.recs.length < r ∧ d.length ≤ n) →
          execWith P (.record c (BitVec.ofNat 16 (l1.toNat * 256 + l0.toNat)) d) s =
            exec (.record c (BitVec.ofNat 16 (l1.toNat * 256 + l0.toNat)) d) s) ∧
        (∀ r n, P.store = .bounded r n → r ≤ s.recs.length ∨ n < d.length →
          execWith P (.record c (BitVec.ofNat 16 (l1.toNat * 256 + l0.toNat)) d) s = .refused .storeFull)) ∧
    (s.fld = .commandId → s.ri.toNat < s.plen.toNat → s.pending = [c] ++ tail →
      exec (.recordCommandId c) s =
        .next { s with
          cid := c, fld := .length, acc := 0, cnt := 0
          buf := s.buf.drop 1, pos := s.pos + 1
          env := { s.env with source := s.env.source.drop (1 - s.buf.length) } }) ∧
    (s.fld = .length → s.cnt = 0 → s.pending = [l1, l0] ++ tail →
      exec (.recordLength (BitVec.ofNat 16 (l1.toNat * 256 + l0.toNat))) s =
        .next { s with
          rlen := BitVec.ofNat 16 (l1.toNat * 256 + l0.toNat)
          fld := .data, dat := [], acc := 0, cnt := 0
          buf := s.buf.drop 2, pos := s.pos + 2
          env := { s.env with source := s.env.source.drop (2 - s.buf.length) } }) ∧
    (s.fld = .data → s.cnt = 0 → d.length = s.rlen.toNat → s.pending = d ++ tail →
      exec (.recordData d) s =
        .next { s with
          dat := s.dat ++ d, cnt := s.rlen
          buf := s.buf.drop d.length, pos := s.pos + d.length
          env := { s.env with source := s.env.source.drop (d.length - s.buf.length) } })

/-- R150, R157, R162 (log 5, 15): HEADER is what its eight byte steps do, with the beats that refill an empty buffer between
them. -/
def Obligations.HeaderIsItsByteSteps : Prop :=
  ∀ (s : State) (v : U16) (d : U32) (p : U16),
    s.rstSeen = true → s.st = .hdrDec → s.fld = .version → s.cnt = 0 → s.env.turns = [] →
    (wireBytes (.header v d p)).isPrefixOf s.pending = true →
    Host.Core.run Sys2Proof.core (8 + (8 - s.buf.length)) s = exec (.header v d p) s

/-- R170, R181 (log 5, 15): RECORD is what its byte steps and its commit do, with the beats that refill an empty buffer
between them, for a record of any length. -/
def Obligations.RecordIsItsByteSteps : Prop :=
  ∀ (s : State) (c : Byte) (l : U16) (d : List Byte),
    s.rstSeen = true → s.st = .payDec → s.fld = .commandId → s.ri.toNat < s.plen.toNat → s.env.turns = [] →
    d.length = l.toNat → (wireBytes (.record c l d)).isPrefixOf s.pending = true →
    Host.Core.run Sys2Proof.core (3 + l.toNat + 1 + (3 + l.toNat - s.buf.length)) s = exec (.record c l d) s

/-! ## HOST -/

/-- R220, R221: START begins a decode from IDLE, DONE or FAILED, clears every parser register and leaves the reader; while
busy it changes nothing. -/
def Obligations.StartBeginsADecode : Prop :=
  ∀ (s : State) (w : U32), s.rstSeen = true → w.getLsbD 0 = true →
    decode (.host true 0 w) = .ok (.start w) [] ∧
    (s.st = .idle ∨ s.st = .done ∨ s.st = .failed → exec (.start w) s =
      .next { s with
        st := .awaitHdr, fld := .version, cnt := 0, acc := 0, ver := 0, dev := 0, plen := 0, ri := 0, cid := 0,
        rlen := 0, dat := [], recs := [], err := none, recSel := 0, recOff := 0 }) ∧
    (s.st = .awaitHdr ∨ s.st = .hdrDec ∨ s.st = .awaitPay ∨ s.st = .payDec → exec (.start w) s = .next s)

/-- R31, R34, R223: WRREG by register number: CTRL with bit 0 clear does nothing and only its bit 0 counts, 7 and 10 write
the pointers from bits 15:0 in every state, and a write to any other number has no operation and changes nothing. -/
def Obligations.WriteRegisterByNumber : Prop :=
  ∀ (s : State) (w : U32), s.rstSeen = true →
    decode (.host true 0 w) = .ok (.start w) [] ∧
    (w.getLsbD 0 = false → exec (.start w) s = .next s) ∧
    (w.getLsbD 0 = true → exec (.start w) s = exec (.start 1) s) ∧
    decode (.host true 7 w) = .ok (.wrregRecSel w) [] ∧
    exec (.wrregRecSel w) s = .next { s with recSel := w.setWidth 16 } ∧
    decode (.host true 10 w) = .ok (.wrregRecOff w) [] ∧
    exec (.wrregRecOff w) s = .next { s with recOff := w.setWidth 16 } ∧
    (∀ n, n ≠ 0 → n ≠ 7 → n ≠ 10 → decode (.host true n w) = .reject .unlistedWrite ∧
      ∀ ts qs, s.env.turns = .host :: ts → s.env.host = .access true n w :: qs →
        step s = .next { s with env := { s.env with turns := ts, host := qs } })

/-- R33, R34, R106: CTRL and the reserved numbers read 0, whatever is on `reg_wdata`, and the read changes nothing in the
block. -/
def Obligations.ReadOfCtrlAndReserved : Prop :=
  ∀ (s : State) (n : BitVec 4) (w : U32), s.rstSeen = true →
    decode (.host false 0 w) = .ok .rdregCtrl [] ∧
    exec .rdregCtrl s = .next { s with env := { s.env with rdata := 0 } } ∧
    (12 ≤ n.toNat → decode (.host false n w) = .ok (.rdregReserved n) [] ∧
      exec (.rdregReserved n) s = .next { s with env := { s.env with rdata := 0 } })

/-- R35: the fields of STATUS, in every state. -/
def Obligations.ReadOfStatus : Prop :=
  ∀ (s : State) (w : U32), s.rstSeen = true →
    decode (.host false 1 w) = .ok .rdregStatus [] ∧
    ∃ v : U32, exec .rdregStatus s = .next { s with env := { s.env with rdata := v } } ∧
      v.extractLsb' 0 3 = s.st.code ∧
      (v.getLsbD 3 = true ↔ s.st = .awaitHdr ∨ s.st = .hdrDec ∨ s.st = .awaitPay ∨ s.st = .payDec) ∧
      (v.getLsbD 4 = true ↔ s.st = .done) ∧
      (v.getLsbD 5 = true ↔ s.st = .failed) ∧
      (s.term = .opened → v.extractLsb' 6 2 = 0) ∧
      (s.term = .eos → v.extractLsb' 6 2 = 1) ∧
      (∀ c, s.term = .ioErr c → v.extractLsb' 6 2 = 2) ∧
      v.extractLsb' 8 24 = 0

/-- R36, R99, R102, R103: the ERR register, 0 outside FAILED, and in FAILED the image of each kind of error as
KIND + 8 CAUSE + 32 FIELD + 256 IOCODE + 65536 INDEX. -/
def Obligations.ReadOfErr : Prop :=
  ∀ (s : State) (w : U32), s.rstSeen = true →
    decode (.host false 2 w) = .ok .rdregErr [] ∧
    ∃ v : U32, exec .rdregErr s = .next { s with env := { s.env with rdata := v } } ∧
      (s.st ≠ .failed → v = 0) ∧
      (s.st = .failed →
        (s.err = some (.headerFormatError .endOfStream) → v.toNat = 1 + 8 * 1) ∧
        (∀ c, s.err = some (.headerFormatError (.ioError c)) → v.toNat = 1 + 8 * 2 + 256 * c.toNat) ∧
        (s.err = some (.dataLengthError .endOfStream) → v.toNat = 2 + 8 * 1) ∧
        (∀ c, s.err = some (.dataLengthError (.ioError c)) → v.toNat = 2 + 8 * 2 + 256 * c.toNat) ∧
        (∀ f, s.err = some (.malformedHeader f) → v.toNat = 3 + 32 * (fieldCode f).toNat) ∧
        (∀ i f, s.err = some (.malformedRecord i f) → v.toNat = 4 + 32 * (fieldCode f).toNat + 65536 * i.toNat) ∧
        (∀ c, s.err = some (.ioError c) → v.toNat = 5 + 256 * c.toNat))

/-- R37, R38, R39, R40: the header registers and REC_COUNT, 0 outside DONE and not writable. -/
def Obligations.ReadOfHeaderRegisters : Prop :=
  ∀ (s : State) (w : U32), s.rstSeen = true →
    [3, 4, 5, 6].map (fun n => decode (.host false n w)) =
      [.ok .rdregHdrVersion [], .ok .rdregHdrDeviceId [], .ok .rdregHdrPayloadLen [], .ok .rdregRecCount []] ∧
    exec .rdregHdrVersion s =
      .next { s with env := { s.env with rdata := if s.st = .done then s.ver.setWidth 32 else 0 } } ∧
    exec .rdregHdrDeviceId s =
      .next { s with env := { s.env with rdata := if s.st = .done then s.dev else 0 } } ∧
    exec .rdregHdrPayloadLen s =
      .next { s with env := { s.env with rdata := if s.st = .done then s.plen.setWidth 32 else 0 } } ∧
    (s.recs.length < 65536 → exec .rdregRecCount s =
      .next { s with env := { s.env with rdata := if s.st = .done then BitVec.ofNat 32 s.recs.length else 0 } }) ∧
    (∀ n : BitVec 4, 3 ≤ n.toNat → n.toNat ≤ 6 → decode (.host true n w) = .reject .unlistedWrite)

/-- R41, R44: the two pointers are read and written in every state, the writes take bits 15:0, and a read of REC_DATA does
not advance them. -/
def Obligations.ReadOfPointers : Prop :=
  ∀ (s : State) (w : U32), s.rstSeen = true →
    exec (.wrregRecSel w) s = .next { s with recSel := w.setWidth 16 } ∧
    exec (.wrregRecOff w) s = .next { s with recOff := w.setWidth 16 } ∧
    decode (.host false 7 w) = .ok .rdregRecSel [] ∧
    exec .rdregRecSel s = .next { s with env := { s.env with rdata := s.recSel.setWidth 32 } } ∧
    decode (.host false 10 w) = .ok .rdregRecOff [] ∧
    exec .rdregRecOff s = .next { s with env := { s.env with rdata := s.recOff.setWidth 32 } } ∧
    (∀ t, exec .rdregRecData s = .next t → t.recOff = s.recOff ∧ t.recSel = s.recSel)

/-- R42, R43, R45: the registers of the selected record, 0 outside DONE and out of range. -/
def Obligations.ReadOfSelectedRecord : Prop :=
  ∀ (s : State) (w : U32), s.rstSeen = true →
    [8, 9, 11].map (fun n => decode (.host false n w)) =
      [.ok .rdregRecCmd [], .ok .rdregRecLen [], .ok .rdregRecData []] ∧
    (∀ r, s.st = .done → s.recs[s.recSel.toNat]? = some r →
      exec .rdregRecCmd s = .next { s with env := { s.env with rdata := r.commandId.setWidth 32 } } ∧
      exec .rdregRecLen s = .next { s with env := { s.env with rdata := r.length.setWidth 32 } } ∧
      (∀ b, s.recOff.toNat < r.length.toNat → r.data[s.recOff.toNat]? = some b →
        exec .rdregRecData s = .next { s with env := { s.env with rdata := b.setWidth 32 } }) ∧
      (r.length.toNat ≤ s.recOff.toNat →
        exec .rdregRecData s = .next { s with env := { s.env with rdata := 0 } })) ∧
    (s.st ≠ .done ∨ s.recs.length ≤ s.recSel.toNat →
      exec .rdregRecCmd s = .next { s with env := { s.env with rdata := 0 } } ∧
      exec .rdregRecLen s = .next { s with env := { s.env with rdata := 0 } } ∧
      exec .rdregRecData s = .next { s with env := { s.env with rdata := 0 } })

/-- R226: the result of each state, and everything the registers show is a function of it, `st`, `term` and the two
pointers. -/
def Obligations.RegistersShowOnlyTheResult : Prop :=
  (∀ s : State, s.rstSeen = true →
    (s.st ≠ .done → s.st ≠ .failed → s.result = none) ∧
    (s.st = .done → s.result = some (.ok ⟨⟨s.ver, s.dev, s.plen⟩, s.recs⟩)) ∧
    (∀ e, s.st = .failed → s.err = some e → s.result = some (.err e))) ∧
  (∀ (s t : State) (n : BitVec 4), s.rstSeen = true → t.rstSeen = true → s.result = t.result → s.st = t.st →
    s.term = t.term → s.recSel = t.recSel → s.recOff = t.recOff → s.regRead n = t.regRead n)

/-! ## Frames -/

/-- R130, R131, R132: SOURCE's operations change nothing but `buf` and `term`. -/
def Obligations.SourceOperationsFrame : Prop :=
  ∀ (i : Instr) (s t : State), instrFormat i = .beat → exec i s = .next t →
    t = { s with buf := t.buf, term := t.term } ∧ (∃ bs, t.buf = s.buf ++ bs ∧ bs.length ≤ 1)

/-- R223, R26, R29, R222: PARSER's operations and the wire items leave the terminator, HOST's pointers and HOST's side of the
port; what they take, they take from the head of the stream, and the cursor moves by just as much (R60, R67). -/
def Obligations.ParserOperationsFrame : Prop :=
  ∀ (i : Instr) (s t : State), isParserInstr i = true → exec i s = .next t →
    t.term = s.term ∧ t.recSel = s.recSel ∧ t.recOff = s.recOff ∧ t.rstSeen = s.rstSeen ∧
    t.env.turns = s.env.turns ∧ t.env.host = s.env.host ∧ t.env.rdata = s.env.rdata ∧
    ∃ bs, s.pending = bs ++ t.pending ∧ t.pos = s.pos + bs.length

/-- R222, R223: HOST's register reads change only what HOST received, and its pointer writes only the pointer. -/
def Obligations.HostAccessFrame : Prop :=
  ∀ (i : Instr) (s t : State), instrFormat i = .host → beginsAnew i = false → exec i s = .next t →
    t = { s with recSel := t.recSel, recOff := t.recOff, env := { s.env with rdata := t.env.rdata } } ∧
    ((∀ w, i ≠ .wrregRecSel w) → t.recSel = s.recSel) ∧
    ((∀ w, i ≠ .wrregRecOff w) → t.recOff = s.recOff) ∧
    (∀ w, i = .wrregRecSel w ∨ i = .wrregRecOff w → t.env.rdata = s.env.rdata)

/-- R29, R71, R73 (log 5): the frame store changes by START, RESET and a commit alone, and a commit leaves every byte stored before
as it was. Under a bounded `STORE`, which this hardware does not have, a commit of a record that does not fit is refused
(93_implementation_defined U8; the two bounds are the model's form of `STORE`, log 26). -/
def Obligations.FrameStoreFrame : Prop :=
  (∀ (i : Instr) (s t : State), beginsAnew i = false → exec i s = .next t →
    (i ≠ .recCommit → (∀ c l d, i ≠ .record c l d) → t.recs = s.recs) ∧
    (∃ rs, t.recs = s.recs ++ rs ∧ rs.length ≤ 1) ∧
    (∀ a j, a < s.recs.length → t.storeByte a j = s.storeByte a j)) ∧
  (∀ (P : Params) (s : State) (r d : Nat), P.store = .bounded r d → s.rstSeen = true →
    s.st = .payDec → s.fld = .data → s.cnt = s.rlen →
    (s.recs.length < r → s.rlen.toNat ≤ d → execWith P .recCommit s = exec .recCommit s) ∧
    (r ≤ s.recs.length ∨ d < s.rlen.toNat → execWith P .recCommit s = .refused .storeFull))

/-! ## Whole-machine rules -/

/-- R47, R25, R159: the invariant holds after reset, and so does FAILED only behind a closed stream; for every value
of the parameters. -/
def Obligations.InvariantHoldsAtReset : Prop :=
  (∀ P : Params, State.reset.Inv P ∧ Memory.wf P State.reset = true) ∧ (State.reset.st = .failed → State.reset.term ≠ .opened)

/-- R47, R25, R159: every step keeps the invariant, at this hardware's parameters and at any others. -/
def Obligations.StepKeepsInvariant : Prop :=
  (∀ s t : State, s.Inv Config.hardware → step s = .next t → t.Inv Config.hardware) ∧
  ∀ (P : Params) (s t : State), s.Inv P → stepWith P s = .next t → t.Inv P

/-- R191, R250 (95_test_vectors 2.8): every step keeps that FAILED stands only behind a closed stream, since every failure
needs one and the terminator is sticky. -/
def Obligations.StepKeepsFailedClosed : Prop :=
  ∀ s t : State, (s.st = .failed → s.term ≠ .opened) → step s = .next t → (t.st = .failed → t.term ≠ .opened)

/-- R21, R281, R291: once closed, the stream is reopened or changed by RESET alone. -/
def Obligations.TerminatorIsSticky : Prop :=
  ∀ (i : Instr) (s t : State), i ≠ .reset → s.term ≠ .opened → exec i s = .next t → t.term = s.term

/-- R191: every change of `st` is a transition of the table, under its condition and with its error. The wire items are the
composition of byte steps (log 5). -/
def Obligations.TransitionsOfTheTable : Prop :=
  ∀ (i : Instr) (s t : State), exec i s = .next t → t.st ≠ s.st →
    (i = .reset ∧ t.st = .idle) ∨
    (∃ w, i = .start w ∧ w.getLsbD 0 = true ∧ (s.st = .idle ∨ s.st = .done ∨ s.st = .failed) ∧ t.st = .awaitHdr) ∨
    (i = .peekHdr ∧ s.st = .awaitHdr ∧ t.st = .hdrDec ∧ 8 ≤ s.buf.length) ∨
    (i = .peekHdr ∧ s.st = .awaitHdr ∧ t.st = .failed ∧ s.buf.length < 8 ∧
      ((s.term = .eos ∧ t.err = some (.headerFormatError .endOfStream)) ∨
        ∃ c, s.term = .ioErr c ∧ t.err = some (.headerFormatError (.ioError c)))) ∨
    (((i = .hdrPayloadLen ∧ s.fld = .payloadLen ∧ s.buf ≠ [] ∧ 2 ≤ s.cnt.toNat + 1) ∨
        (∃ p, i = .headerPayloadLen p ∧ s.fld = .payloadLen ∧ s.cnt = 0 ∧
          (wireBytes (.headerPayloadLen p)).isPrefixOf s.pending = true) ∨
        ∃ v d p, i = .header v d p ∧ s.fld = .version ∧ s.cnt = 0 ∧
          (wireBytes (.header v d p)).isPrefixOf s.pending = true) ∧
      s.st = .hdrDec ∧ t.st = .awaitPay) ∨
    ((i = .hdrVersion ∨ i = .hdrDeviceId ∨ i = .hdrPayloadLen) ∧ s.st = .hdrDec ∧ t.st = .failed ∧ s.buf = [] ∧
      ((s.term = .eos ∧ t.err = some (.malformedHeader s.fld)) ∨
        ∃ c, s.term = .ioErr c ∧ t.err = some (.ioError c))) ∨
    (i = .peekPay ∧ s.st = .awaitPay ∧ t.st = .payDec ∧ Config.hardware.paywin s.plen ≤ s.buf.length) ∨
    (i = .peekPay ∧ s.st = .awaitPay ∧ t.st = .failed ∧ s.buf.length < Config.hardware.paywin s.plen ∧
      ((s.term = .eos ∧ t.err = some (.dataLengthError .endOfStream)) ∨
        ∃ c, s.term = .ioErr c ∧ t.err = some (.dataLengthError (.ioError c)))) ∨
    ((i = .recCommandId ∨ i = .recLength ∨ i = .recData) ∧ s.st = .payDec ∧ t.st = .failed ∧ s.buf = [] ∧
      ((s.term = .eos ∧ t.err = some (.malformedRecord s.ri s.fld)) ∨
        ∃ c, s.term = .ioErr c ∧ t.err = some (.ioError c))) ∨
    (i = .assemble ∧ s.st = .payDec ∧ t.st = .done ∧ s.fld = .commandId ∧ s.ri = s.plen)

/-- R250, R251: a step that enters FAILED changes `st` and `ERR` and nothing else, and PARSER has no step there. -/
def Obligations.FailureEntryIsPrecise : Prop :=
  ∀ (i : Instr) (s t : State), exec i s = .next t → s.st ≠ .failed → t.st = .failed →
    (∃ e, t = { s with st := .failed, err := some e }) ∧
    decode (.step t.cw t.ri t.plen t.cnt t.rlen) = .reject .noParserStep

/-- R193, R194: in DONE and FAILED the result stands until START or RESET. -/
def Obligations.ResultStandsUntilRestart : Prop :=
  ∀ (i : Instr) (s t : State), beginsAnew i = false → s.st = .done ∨ s.st = .failed → exec i s = .next t →
    t.st = s.st ∧ t.err = s.err ∧ t.result = s.result ∧ t.pos = s.pos ∧
    t.ver = s.ver ∧ t.dev = s.dev ∧ t.plen = s.plen ∧ t.recs = s.recs

/-- R33, R180, R255: outside DONE no register shows anything of a frame, and outside FAILED the ERR register reads 0. -/
def Obligations.NoPartialFrameIsReadable : Prop :=
  ∀ (s : State) (n : BitVec 4),
    (s.st ≠ .done → n = 3 ∨ n = 4 ∨ n = 5 ∨ n = 6 ∨ n = 8 ∨ n = 9 ∨ n = 11 → s.regRead n = 0) ∧
    (s.st ≠ .failed → s.regRead 2 = 0)

/-- R159: from a state that meets the invariant every step of the Header Decoder takes a byte: it neither fails nor waits. -/
def Obligations.HeaderStepsAlwaysFindAByte : Prop :=
  ∀ (P : Params) (s : State), s.Inv P → s.rstSeen = true → s.st = .hdrDec →
    ∃ i t, decode (.step s.cw s.ri s.plen s.cnt s.rlen) = .ok i [] ∧ exec i s = .next t ∧
      t.pos = s.pos + 1 ∧ t.st ≠ .failed ∧ t.buf = s.buf.tail

/-- R223: PARSER never reads HOST's pointers. -/
def Obligations.ParserIgnoresPointers : Prop :=
  ∀ (i : Instr) (s t : State) (a b : U16), isParserInstr i = true → exec i s = .next t →
    exec i { s with recSel := a, recOff := b } = .next { t with recSel := a, recOff := b }

/-- R220, R282 (D24): the state START leaves depends on nothing of an earlier decode, only on the reader (and on the agents
around the block). -/
def Obligations.StartForgetsTheLastDecode : Prop :=
  ∀ (s t : State) (w : U32), w.getLsbD 0 = true → s.busy = false → t.busy = false → s.rstSeen = t.rstSeen →
    s.buf = t.buf → s.term = t.term → s.pos = t.pos → s.env = t.env → exec (.start w) s = exec (.start w) t

/-- R77, R196: no step but START and RESET changes what the decode under way will come to, whichever agent moves: the result
and the final cursor do not depend on the schedule, nor on `BUFCAP` or `STORE`. -/
def Obligations.ForecastDoesNotDependOnSchedule : Prop :=
  (∀ s t : State, s.Inv Config.hardware → (∀ i, s.fetch Config.hardware = some i → beginsAnew i = false) →
    step s = .next t → t.forecast Config.hardware = s.forecast Config.hardware) ∧
  (∀ (P : Params) (s t : State), s.Inv P → (∀ i, s.fetch P = some i → beginsAnew i = false) →
    stepWith P s = .next t → t.forecast P = s.forecast P) ∧
  (∀ (P Q : Params) (s : State), P.paywin = Q.paywin → P.iocodeW = Q.iocodeW → s.forecast P = s.forecast Q)

/-- R112, R113, R198: decoding what `enc` makes of a well-formed frame gives that frame back, consumes exactly those bytes
and leaves what follows, whatever the terminator and whatever the parameters R6 allows. -/
def Obligations.DecodeFrameOfEnc : Prop :=
  ∀ (P : Params) (f : Frame) (tail : List Byte) (t : Term), P.Legal → f.wf = true →
    decodeFrame P t (encFrame f ++ tail) = some (.ok f, (encFrame f).length)

/-- R193, R197, R90: a decode that succeeds gives a well-formed frame, and the bytes it consumed are that frame's encoding:
8 and the sum over records of 3 + Length. -/
def Obligations.DecodedFrameIsItsBytes : Prop :=
  ∀ (P : Params) (t : Term) (bs : List Byte) (f : Frame) (n : Nat), decodeFrame P t bs = some (.ok f, n) →
    f.wf = true ∧ n = 8 + (f.records.map fun r => 3 + r.length.toNat).sum ∧ bs.take n = encFrame f

/-- R197, R159: the bytes a failed decode consumed, by the kind of error, and that `MalformedHeader` is never the
result of a decode; at this hardware's parameters DataLengthError means that no byte follows the header. -/
def Obligations.BytesConsumedByAFailedDecode : Prop :=
  (∀ (P : Params) (t : Term) (bs : List Byte) (e : Err) (n : Nat), decodeFrame P t bs = some (.err e, n) →
    (∀ c, e = .headerFormatError c → n = 0 ∧ bs.length < 8) ∧
    (∀ c, e = .dataLengthError c → n = 8 ∧ 8 ≤ bs.length ∧
      bs.length < 8 + P.paywin (u16 ((bs.drop 6).take 2))) ∧
    (∀ i f, e = .malformedRecord i f → n = bs.length ∧ t = .eos) ∧
    (∀ c, e = .ioError c → n = bs.length ∧ t = .ioErr c) ∧
    (∀ f, e ≠ .malformedHeader f)) ∧
  (∀ t bs c n, decodeFrame Config.hardware t bs = some (.err (.dataLengthError c), n) → bs.length = 8)

/-- R113, R197, R201 (log 15): SOURCE holding the encoding of a well-formed frame, with whatever follows, a decode that has
just started reaches DONE with that frame in exactly the step count of R201 and one step a byte, and leaves what follows; so
does the machine with any parameters R6 allows. -/
def Obligations.DecodeRunsToItsFrame : Prop :=
  ∀ (s : State) (f : Frame) (more : List Beat), f.wf = true → s.rstSeen = true → s.st = .awaitHdr → s.recs = [] →
    s.term = .opened → s.buf = [] → s.env.turns = [] →
    s.env.source = (encFrame f).map (fun b => ⟨0, b⟩) ++ more →
    (∃ t, Host.Core.run Sys2Proof.core (stepCount f + (encFrame f).length) s = .next t ∧
      t.result = some (.ok f) ∧ t.pos = s.pos + (encFrame f).length ∧ t.buf = [] ∧ t.env.source = more) ∧
    ∀ P : Params, P.Legal →
      ∃ t, Host.Core.run (machineWith P) (stepCount f + (encFrame f).length) s = .next t ∧
        t.result = some (.ok f) ∧ t.pos = s.pos + (encFrame f).length ∧ t.buf = [] ∧ t.env.source = more
end

