-- ==== Sys2Proof/Laws/State.lean ====
section
/-! SUPPORT. What each named update leaves in each field of State. -/

namespace Sys2Proof.Machine

open Sys2Proof

@[simp] theorem State.take_buf (s : State) : s.take.buf = s.buf.tail := rfl
@[simp] theorem State.take_term (s : State) : s.take.term = s.term := rfl
@[simp] theorem State.take_pos (s : State) : s.take.pos = s.pos + 1 := rfl
@[simp] theorem State.take_st (s : State) : s.take.st = s.st := rfl
@[simp] theorem State.take_fld (s : State) : s.take.fld = s.fld := rfl
@[simp] theorem State.take_cnt (s : State) : s.take.cnt = s.cnt := rfl
@[simp] theorem State.take_acc (s : State) : s.take.acc = s.acc := rfl
@[simp] theorem State.take_ver (s : State) : s.take.ver = s.ver := rfl
@[simp] theorem State.take_dev (s : State) : s.take.dev = s.dev := rfl
@[simp] theorem State.take_plen (s : State) : s.take.plen = s.plen := rfl
@[simp] theorem State.take_ri (s : State) : s.take.ri = s.ri := rfl
@[simp] theorem State.take_cid (s : State) : s.take.cid = s.cid := rfl
@[simp] theorem State.take_rlen (s : State) : s.take.rlen = s.rlen := rfl
@[simp] theorem State.take_dat (s : State) : s.take.dat = s.dat := rfl
@[simp] theorem State.take_recs (s : State) : s.take.recs = s.recs := rfl
@[simp] theorem State.take_err (s : State) : s.take.err = s.err := rfl
@[simp] theorem State.take_recSel (s : State) : s.take.recSel = s.recSel := rfl
@[simp] theorem State.take_recOff (s : State) : s.take.recOff = s.recOff := rfl
@[simp] theorem State.take_rstSeen (s : State) : s.take.rstSeen = s.rstSeen := rfl
@[simp] theorem State.take_env (s : State) : s.take.env = s.env := rfl

@[simp] theorem State.push_buf (s : State) (b : Byte) : (s.push b).buf = s.buf ++ [b] := rfl
@[simp] theorem State.push_term (s : State) (b : Byte) : (s.push b).term = s.term := rfl
@[simp] theorem State.push_pos (s : State) (b : Byte) : (s.push b).pos = s.pos := rfl
@[simp] theorem State.push_st (s : State) (b : Byte) : (s.push b).st = s.st := rfl
@[simp] theorem State.push_fld (s : State) (b : Byte) : (s.push b).fld = s.fld := rfl
@[simp] theorem State.push_cnt (s : State) (b : Byte) : (s.push b).cnt = s.cnt := rfl
@[simp] theorem State.push_acc (s : State) (b : Byte) : (s.push b).acc = s.acc := rfl
@[simp] theorem State.push_ver (s : State) (b : Byte) : (s.push b).ver = s.ver := rfl
@[simp] theorem State.push_dev (s : State) (b : Byte) : (s.push b).dev = s.dev := rfl
@[simp] theorem State.push_plen (s : State) (b : Byte) : (s.push b).plen = s.plen := rfl
@[simp] theorem State.push_ri (s : State) (b : Byte) : (s.push b).ri = s.ri := rfl
@[simp] theorem State.push_cid (s : State) (b : Byte) : (s.push b).cid = s.cid := rfl
@[simp] theorem State.push_rlen (s : State) (b : Byte) : (s.push b).rlen = s.rlen := rfl
@[simp] theorem State.push_dat (s : State) (b : Byte) : (s.push b).dat = s.dat := rfl
@[simp] theorem State.push_recs (s : State) (b : Byte) : (s.push b).recs = s.recs := rfl
@[simp] theorem State.push_err (s : State) (b : Byte) : (s.push b).err = s.err := rfl
@[simp] theorem State.push_recSel (s : State) (b : Byte) : (s.push b).recSel = s.recSel := rfl
@[simp] theorem State.push_recOff (s : State) (b : Byte) : (s.push b).recOff = s.recOff := rfl
@[simp] theorem State.push_rstSeen (s : State) (b : Byte) : (s.push b).rstSeen = s.rstSeen := rfl
@[simp] theorem State.push_env (s : State) (b : Byte) : (s.push b).env = s.env := rfl

@[simp] theorem State.close_buf (s : State) (t : Term) : (s.close t).buf = s.buf := rfl
@[simp] theorem State.close_term (s : State) (t : Term) : (s.close t).term = t := rfl
@[simp] theorem State.close_pos (s : State) (t : Term) : (s.close t).pos = s.pos := rfl
@[simp] theorem State.close_st (s : State) (t : Term) : (s.close t).st = s.st := rfl
@[simp] theorem State.close_fld (s : State) (t : Term) : (s.close t).fld = s.fld := rfl
@[simp] theorem State.close_cnt (s : State) (t : Term) : (s.close t).cnt = s.cnt := rfl
@[simp] theorem State.close_acc (s : State) (t : Term) : (s.close t).acc = s.acc := rfl
@[simp] theorem State.close_ver (s : State) (t : Term) : (s.close t).ver = s.ver := rfl
@[simp] theorem State.close_dev (s : State) (t : Term) : (s.close t).dev = s.dev := rfl
@[simp] theorem State.close_plen (s : State) (t : Term) : (s.close t).plen = s.plen := rfl
@[simp] theorem State.close_ri (s : State) (t : Term) : (s.close t).ri = s.ri := rfl
@[simp] theorem State.close_cid (s : State) (t : Term) : (s.close t).cid = s.cid := rfl
@[simp] theorem State.close_rlen (s : State) (t : Term) : (s.close t).rlen = s.rlen := rfl
@[simp] theorem State.close_dat (s : State) (t : Term) : (s.close t).dat = s.dat := rfl
@[simp] theorem State.close_recs (s : State) (t : Term) : (s.close t).recs = s.recs := rfl
@[simp] theorem State.close_err (s : State) (t : Term) : (s.close t).err = s.err := rfl
@[simp] theorem State.close_recSel (s : State) (t : Term) : (s.close t).recSel = s.recSel := rfl
@[simp] theorem State.close_recOff (s : State) (t : Term) : (s.close t).recOff = s.recOff := rfl
@[simp] theorem State.close_rstSeen (s : State) (t : Term) : (s.close t).rstSeen = s.rstSeen := rfl
@[simp] theorem State.close_env (s : State) (t : Term) : (s.close t).env = s.env := rfl

@[simp] theorem State.fail_buf (s : State) (e : Err) : (s.fail e).buf = s.buf := rfl
@[simp] theorem State.fail_term (s : State) (e : Err) : (s.fail e).term = s.term := rfl
@[simp] theorem State.fail_pos (s : State) (e : Err) : (s.fail e).pos = s.pos := rfl
@[simp] theorem State.fail_st (s : State) (e : Err) : (s.fail e).st = .failed := rfl
@[simp] theorem State.fail_fld (s : State) (e : Err) : (s.fail e).fld = s.fld := rfl
@[simp] theorem State.fail_cnt (s : State) (e : Err) : (s.fail e).cnt = s.cnt := rfl
@[simp] theorem State.fail_acc (s : State) (e : Err) : (s.fail e).acc = s.acc := rfl
@[simp] theorem State.fail_ver (s : State) (e : Err) : (s.fail e).ver = s.ver := rfl
@[simp] theorem State.fail_dev (s : State) (e : Err) : (s.fail e).dev = s.dev := rfl
@[simp] theorem State.fail_plen (s : State) (e : Err) : (s.fail e).plen = s.plen := rfl
@[simp] theorem State.fail_ri (s : State) (e : Err) : (s.fail e).ri = s.ri := rfl
@[simp] theorem State.fail_cid (s : State) (e : Err) : (s.fail e).cid = s.cid := rfl
@[simp] theorem State.fail_rlen (s : State) (e : Err) : (s.fail e).rlen = s.rlen := rfl
@[simp] theorem State.fail_dat (s : State) (e : Err) : (s.fail e).dat = s.dat := rfl
@[simp] theorem State.fail_recs (s : State) (e : Err) : (s.fail e).recs = s.recs := rfl
@[simp] theorem State.fail_err (s : State) (e : Err) : (s.fail e).err = some e := rfl
@[simp] theorem State.fail_recSel (s : State) (e : Err) : (s.fail e).recSel = s.recSel := rfl
@[simp] theorem State.fail_recOff (s : State) (e : Err) : (s.fail e).recOff = s.recOff := rfl
@[simp] theorem State.fail_rstSeen (s : State) (e : Err) : (s.fail e).rstSeen = s.rstSeen := rfl
@[simp] theorem State.fail_env (s : State) (e : Err) : (s.fail e).env = s.env := rfl

@[simp] theorem State.commit_buf (s : State) (r : Record) : (s.commit r).buf = s.buf := rfl
@[simp] theorem State.commit_term (s : State) (r : Record) : (s.commit r).term = s.term := rfl
@[simp] theorem State.commit_pos (s : State) (r : Record) : (s.commit r).pos = s.pos := rfl
@[simp] theorem State.commit_st (s : State) (r : Record) : (s.commit r).st = s.st := rfl
@[simp] theorem State.commit_fld (s : State) (r : Record) : (s.commit r).fld = .commandId := rfl
@[simp] theorem State.commit_cnt (s : State) (r : Record) : (s.commit r).cnt = 0 := rfl
@[simp] theorem State.commit_acc (s : State) (r : Record) : (s.commit r).acc = 0 := rfl
@[simp] theorem State.commit_ver (s : State) (r : Record) : (s.commit r).ver = s.ver := rfl
@[simp] theorem State.commit_dev (s : State) (r : Record) : (s.commit r).dev = s.dev := rfl
@[simp] theorem State.commit_plen (s : State) (r : Record) : (s.commit r).plen = s.plen := rfl
@[simp] theorem State.commit_ri (s : State) (r : Record) : (s.commit r).ri = s.ri + 1 := rfl
@[simp] theorem State.commit_cid (s : State) (r : Record) : (s.commit r).cid = s.cid := rfl
@[simp] theorem State.commit_rlen (s : State) (r : Record) : (s.commit r).rlen = s.rlen := rfl
@[simp] theorem State.commit_dat (s : State) (r : Record) : (s.commit r).dat = [] := rfl
@[simp] theorem State.commit_recs (s : State) (r : Record) : (s.commit r).recs = s.recs ++ [r] := rfl
@[simp] theorem State.commit_err (s : State) (r : Record) : (s.commit r).err = s.err := rfl
@[simp] theorem State.commit_recSel (s : State) (r : Record) : (s.commit r).recSel = s.recSel := rfl
@[simp] theorem State.commit_recOff (s : State) (r : Record) : (s.commit r).recOff = s.recOff := rfl
@[simp] theorem State.commit_rstSeen (s : State) (r : Record) : (s.commit r).rstSeen = s.rstSeen := rfl
@[simp] theorem State.commit_env (s : State) (r : Record) : (s.commit r).env = s.env := rfl

@[simp] theorem State.takeStream_buf (s : State) (n : Nat) : (s.takeStream n).buf = s.buf.drop n := rfl
@[simp] theorem State.takeStream_term (s : State) (n : Nat) : (s.takeStream n).term = s.term := rfl
@[simp] theorem State.takeStream_pos (s : State) (n : Nat) : (s.takeStream n).pos = s.pos + n := rfl
@[simp] theorem State.takeStream_st (s : State) (n : Nat) : (s.takeStream n).st = s.st := rfl
@[simp] theorem State.takeStream_fld (s : State) (n : Nat) : (s.takeStream n).fld = s.fld := rfl
@[simp] theorem State.takeStream_cnt (s : State) (n : Nat) : (s.takeStream n).cnt = s.cnt := rfl
@[simp] theorem State.takeStream_acc (s : State) (n : Nat) : (s.takeStream n).acc = s.acc := rfl
@[simp] theorem State.takeStream_ver (s : State) (n : Nat) : (s.takeStream n).ver = s.ver := rfl
@[simp] theorem State.takeStream_dev (s : State) (n : Nat) : (s.takeStream n).dev = s.dev := rfl
@[simp] theorem State.takeStream_plen (s : State) (n : Nat) : (s.takeStream n).plen = s.plen := rfl
@[simp] theorem State.takeStream_ri (s : State) (n : Nat) : (s.takeStream n).ri = s.ri := rfl
@[simp] theorem State.takeStream_cid (s : State) (n : Nat) : (s.takeStream n).cid = s.cid := rfl
@[simp] theorem State.takeStream_rlen (s : State) (n : Nat) : (s.takeStream n).rlen = s.rlen := rfl
@[simp] theorem State.takeStream_dat (s : State) (n : Nat) : (s.takeStream n).dat = s.dat := rfl
@[simp] theorem State.takeStream_recs (s : State) (n : Nat) : (s.takeStream n).recs = s.recs := rfl
@[simp] theorem State.takeStream_err (s : State) (n : Nat) : (s.takeStream n).err = s.err := rfl
@[simp] theorem State.takeStream_recSel (s : State) (n : Nat) : (s.takeStream n).recSel = s.recSel := rfl
@[simp] theorem State.takeStream_recOff (s : State) (n : Nat) : (s.takeStream n).recOff = s.recOff := rfl
@[simp] theorem State.takeStream_rstSeen (s : State) (n : Nat) : (s.takeStream n).rstSeen = s.rstSeen := rfl
@[simp] theorem State.takeStream_env (s : State) (n : Nat) : (s.takeStream n).env = { s.env with source := s.env.source.drop (n - s.buf.length) } := rfl

@[simp] theorem State.beginDecode_buf (s : State) : s.beginDecode.buf = s.buf := rfl
@[simp] theorem State.beginDecode_term (s : State) : s.beginDecode.term = s.term := rfl
@[simp] theorem State.beginDecode_pos (s : State) : s.beginDecode.pos = s.pos := rfl
@[simp] theorem State.beginDecode_st (s : State) : s.beginDecode.st = .awaitHdr := rfl
@[simp] theorem State.beginDecode_fld (s : State) : s.beginDecode.fld = .version := rfl
@[simp] theorem State.beginDecode_cnt (s : State) : s.beginDecode.cnt = 0 := rfl
@[simp] theorem State.beginDecode_acc (s : State) : s.beginDecode.acc = 0 := rfl
@[simp] theorem State.beginDecode_ver (s : State) : s.beginDecode.ver = 0 := rfl
@[simp] theorem State.beginDecode_dev (s : State) : s.beginDecode.dev = 0 := rfl
@[simp] theorem State.beginDecode_plen (s : State) : s.beginDecode.plen = 0 := rfl
@[simp] theorem State.beginDecode_ri (s : State) : s.beginDecode.ri = 0 := rfl
@[simp] theorem State.beginDecode_cid (s : State) : s.beginDecode.cid = 0 := rfl
@[simp] theorem State.beginDecode_rlen (s : State) : s.beginDecode.rlen = 0 := rfl
@[simp] theorem State.beginDecode_dat (s : State) : s.beginDecode.dat = [] := rfl
@[simp] theorem State.beginDecode_recs (s : State) : s.beginDecode.recs = [] := rfl
@[simp] theorem State.beginDecode_err (s : State) : s.beginDecode.err = none := rfl
@[simp] theorem State.beginDecode_recSel (s : State) : s.beginDecode.recSel = 0 := rfl
@[simp] theorem State.beginDecode_recOff (s : State) : s.beginDecode.recOff = 0 := rfl
@[simp] theorem State.beginDecode_rstSeen (s : State) : s.beginDecode.rstSeen = s.rstSeen := rfl
@[simp] theorem State.beginDecode_env (s : State) : s.beginDecode.env = s.env := rfl

@[simp] theorem State.doReset_buf (s : State) : s.doReset.buf = [] := rfl
@[simp] theorem State.doReset_term (s : State) : s.doReset.term = .opened := rfl
@[simp] theorem State.doReset_pos (s : State) : s.doReset.pos = 0 := rfl
@[simp] theorem State.doReset_st (s : State) : s.doReset.st = .idle := rfl
@[simp] theorem State.doReset_fld (s : State) : s.doReset.fld = .version := rfl
@[simp] theorem State.doReset_cnt (s : State) : s.doReset.cnt = 0 := rfl
@[simp] theorem State.doReset_acc (s : State) : s.doReset.acc = 0 := rfl
@[simp] theorem State.doReset_ver (s : State) : s.doReset.ver = 0 := rfl
@[simp] theorem State.doReset_dev (s : State) : s.doReset.dev = 0 := rfl
@[simp] theorem State.doReset_plen (s : State) : s.doReset.plen = 0 := rfl
@[simp] theorem State.doReset_ri (s : State) : s.doReset.ri = 0 := rfl
@[simp] theorem State.doReset_cid (s : State) : s.doReset.cid = 0 := rfl
@[simp] theorem State.doReset_rlen (s : State) : s.doReset.rlen = 0 := rfl
@[simp] theorem State.doReset_dat (s : State) : s.doReset.dat = [] := rfl
@[simp] theorem State.doReset_recs (s : State) : s.doReset.recs = [] := rfl
@[simp] theorem State.doReset_err (s : State) : s.doReset.err = none := rfl
@[simp] theorem State.doReset_recSel (s : State) : s.doReset.recSel = 0 := rfl
@[simp] theorem State.doReset_recOff (s : State) : s.doReset.recOff = 0 := rfl
@[simp] theorem State.doReset_rstSeen (s : State) : s.doReset.rstSeen = true := rfl
@[simp] theorem State.doReset_env (s : State) : s.doReset.env = s.env := rfl

@[simp] theorem State.setRdata_buf (s : State) (v : U32) : (s.setRdata v).buf = s.buf := rfl
@[simp] theorem State.setRdata_term (s : State) (v : U32) : (s.setRdata v).term = s.term := rfl
@[simp] theorem State.setRdata_pos (s : State) (v : U32) : (s.setRdata v).pos = s.pos := rfl
@[simp] theorem State.setRdata_st (s : State) (v : U32) : (s.setRdata v).st = s.st := rfl
@[simp] theorem State.setRdata_fld (s : State) (v : U32) : (s.setRdata v).fld = s.fld := rfl
@[simp] theorem State.setRdata_cnt (s : State) (v : U32) : (s.setRdata v).cnt = s.cnt := rfl
@[simp] theorem State.setRdata_acc (s : State) (v : U32) : (s.setRdata v).acc = s.acc := rfl
@[simp] theorem State.setRdata_ver (s : State) (v : U32) : (s.setRdata v).ver = s.ver := rfl
@[simp] theorem State.setRdata_dev (s : State) (v : U32) : (s.setRdata v).dev = s.dev := rfl
@[simp] theorem State.setRdata_plen (s : State) (v : U32) : (s.setRdata v).plen = s.plen := rfl
@[simp] theorem State.setRdata_ri (s : State) (v : U32) : (s.setRdata v).ri = s.ri := rfl
@[simp] theorem State.setRdata_cid (s : State) (v : U32) : (s.setRdata v).cid = s.cid := rfl
@[simp] theorem State.setRdata_rlen (s : State) (v : U32) : (s.setRdata v).rlen = s.rlen := rfl
@[simp] theorem State.setRdata_dat (s : State) (v : U32) : (s.setRdata v).dat = s.dat := rfl
@[simp] theorem State.setRdata_recs (s : State) (v : U32) : (s.setRdata v).recs = s.recs := rfl
@[simp] theorem State.setRdata_err (s : State) (v : U32) : (s.setRdata v).err = s.err := rfl
@[simp] theorem State.setRdata_recSel (s : State) (v : U32) : (s.setRdata v).recSel = s.recSel := rfl
@[simp] theorem State.setRdata_recOff (s : State) (v : U32) : (s.setRdata v).recOff = s.recOff := rfl
@[simp] theorem State.setRdata_rstSeen (s : State) (v : U32) : (s.setRdata v).rstSeen = s.rstSeen := rfl
@[simp] theorem State.setRdata_env (s : State) (v : U32) : (s.setRdata v).env = { s.env with rdata := v } := rfl

@[simp] theorem State.popTurn_buf (s : State) : s.popTurn.buf = s.buf := rfl
@[simp] theorem State.popTurn_term (s : State) : s.popTurn.term = s.term := rfl
@[simp] theorem State.popTurn_pos (s : State) : s.popTurn.pos = s.pos := rfl
@[simp] theorem State.popTurn_st (s : State) : s.popTurn.st = s.st := rfl
@[simp] theorem State.popTurn_fld (s : State) : s.popTurn.fld = s.fld := rfl
@[simp] theorem State.popTurn_cnt (s : State) : s.popTurn.cnt = s.cnt := rfl
@[simp] theorem State.popTurn_acc (s : State) : s.popTurn.acc = s.acc := rfl
@[simp] theorem State.popTurn_ver (s : State) : s.popTurn.ver = s.ver := rfl
@[simp] theorem State.popTurn_dev (s : State) : s.popTurn.dev = s.dev := rfl
@[simp] theorem State.popTurn_plen (s : State) : s.popTurn.plen = s.plen := rfl
@[simp] theorem State.popTurn_ri (s : State) : s.popTurn.ri = s.ri := rfl
@[simp] theorem State.popTurn_cid (s : State) : s.popTurn.cid = s.cid := rfl
@[simp] theorem State.popTurn_rlen (s : State) : s.popTurn.rlen = s.rlen := rfl
@[simp] theorem State.popTurn_dat (s : State) : s.popTurn.dat = s.dat := rfl
@[simp] theorem State.popTurn_recs (s : State) : s.popTurn.recs = s.recs := rfl
@[simp] theorem State.popTurn_err (s : State) : s.popTurn.err = s.err := rfl
@[simp] theorem State.popTurn_recSel (s : State) : s.popTurn.recSel = s.recSel := rfl
@[simp] theorem State.popTurn_recOff (s : State) : s.popTurn.recOff = s.recOff := rfl
@[simp] theorem State.popTurn_rstSeen (s : State) : s.popTurn.rstSeen = s.rstSeen := rfl
@[simp] theorem State.popTurn_env (s : State) : s.popTurn.env = { s.env with turns := s.env.turns.tail } := rfl

@[simp] theorem State.popSource_buf (s : State) : s.popSource.buf = s.buf := rfl
@[simp] theorem State.popSource_term (s : State) : s.popSource.term = s.term := rfl
@[simp] theorem State.popSource_pos (s : State) : s.popSource.pos = s.pos := rfl
@[simp] theorem State.popSource_st (s : State) : s.popSource.st = s.st := rfl
@[simp] theorem State.popSource_fld (s : State) : s.popSource.fld = s.fld := rfl
@[simp] theorem State.popSource_cnt (s : State) : s.popSource.cnt = s.cnt := rfl
@[simp] theorem State.popSource_acc (s : State) : s.popSource.acc = s.acc := rfl
@[simp] theorem State.popSource_ver (s : State) : s.popSource.ver = s.ver := rfl
@[simp] theorem State.popSource_dev (s : State) : s.popSource.dev = s.dev := rfl
@[simp] theorem State.popSource_plen (s : State) : s.popSource.plen = s.plen := rfl
@[simp] theorem State.popSource_ri (s : State) : s.popSource.ri = s.ri := rfl
@[simp] theorem State.popSource_cid (s : State) : s.popSource.cid = s.cid := rfl
@[simp] theorem State.popSource_rlen (s : State) : s.popSource.rlen = s.rlen := rfl
@[simp] theorem State.popSource_dat (s : State) : s.popSource.dat = s.dat := rfl
@[simp] theorem State.popSource_recs (s : State) : s.popSource.recs = s.recs := rfl
@[simp] theorem State.popSource_err (s : State) : s.popSource.err = s.err := rfl
@[simp] theorem State.popSource_recSel (s : State) : s.popSource.recSel = s.recSel := rfl
@[simp] theorem State.popSource_recOff (s : State) : s.popSource.recOff = s.recOff := rfl
@[simp] theorem State.popSource_rstSeen (s : State) : s.popSource.rstSeen = s.rstSeen := rfl
@[simp] theorem State.popSource_env (s : State) : s.popSource.env = { s.env with source := s.env.source.tail } := rfl

@[simp] theorem State.popHost_buf (s : State) : s.popHost.buf = s.buf := rfl
@[simp] theorem State.popHost_term (s : State) : s.popHost.term = s.term := rfl
@[simp] theorem State.popHost_pos (s : State) : s.popHost.pos = s.pos := rfl
@[simp] theorem State.popHost_st (s : State) : s.popHost.st = s.st := rfl
@[simp] theorem State.popHost_fld (s : State) : s.popHost.fld = s.fld := rfl
@[simp] theorem State.popHost_cnt (s : State) : s.popHost.cnt = s.cnt := rfl
@[simp] theorem State.popHost_acc (s : State) : s.popHost.acc = s.acc := rfl
@[simp] theorem State.popHost_ver (s : State) : s.popHost.ver = s.ver := rfl
@[simp] theorem State.popHost_dev (s : State) : s.popHost.dev = s.dev := rfl
@[simp] theorem State.popHost_plen (s : State) : s.popHost.plen = s.plen := rfl
@[simp] theorem State.popHost_ri (s : State) : s.popHost.ri = s.ri := rfl
@[simp] theorem State.popHost_cid (s : State) : s.popHost.cid = s.cid := rfl
@[simp] theorem State.popHost_rlen (s : State) : s.popHost.rlen = s.rlen := rfl
@[simp] theorem State.popHost_dat (s : State) : s.popHost.dat = s.dat := rfl
@[simp] theorem State.popHost_recs (s : State) : s.popHost.recs = s.recs := rfl
@[simp] theorem State.popHost_err (s : State) : s.popHost.err = s.err := rfl
@[simp] theorem State.popHost_recSel (s : State) : s.popHost.recSel = s.recSel := rfl
@[simp] theorem State.popHost_recOff (s : State) : s.popHost.recOff = s.recOff := rfl
@[simp] theorem State.popHost_rstSeen (s : State) : s.popHost.rstSeen = s.rstSeen := rfl
@[simp] theorem State.popHost_env (s : State) : s.popHost.env = { s.env with host := s.env.host.tail } := rfl

end Sys2Proof.Machine
end

