-- ==== Sys2Proof/Laws/Ops.lean ====
section
/-! SUPPORT. What each shared operation can do, said once. -/

namespace Sys2Proof

/-! ## The parameters (R6) -/

/-- A byte finds room when the buffer stays within its capacity with it. -/
theorem Params.room_eq_holds (P : Params) (n : Nat) : P.room n = P.holds (n + 1) := by
  unfold Params.room Params.holds; cases P.bufcap <;> rfl

/-- A shorter buffer is within the capacity too. -/
theorem Params.holds_mono {P : Params} {m n : Nat} (h : m ≤ n) (hn : P.holds n = true) : P.holds m = true := by
  unfold Params.holds at *; split at hn <;> simp_all; omega

/-- A store that meets R6 holds every record of a frame. -/
theorem Params.Legal.fits {P : Params} (hP : P.Legal) {n : Nat} (hn : n < 65535) (len : U16) : P.fits n len = true := by
  unfold Params.fits
  split
  · rfl
  · rename_i r d h
    have := hP.storeHolds r d h
    have := len.isLt
    simp; omega

/-- A buffer that meets R6 holds a header. -/
theorem Params.Legal.holds_header {P : Params} (hP : P.Legal) : P.holds 8 = true := by
  unfold Params.holds
  split
  · rename_i c h; simpa using hP.bufcapHeader c h
  · rfl

/-- A buffer that meets R6 holds what the payload checkpoint asks for. -/
theorem Params.Legal.holds_paywin {P : Params} (hP : P.Legal) (p : U16) : P.holds (P.paywin p) = true := by
  unfold Params.holds
  split
  · rename_i c h; simpa using hP.bufcapPaywin c p h
  · rfl

/-- The cause code is the low `IOCODE_W` bits of the byte (R132). -/
theorem Params.code_toNat (P : Params) (c : IoCode) : (P.code c).toNat = c.toNat % 2 ^ P.iocodeW := by
  have h : c.toNat % 2 ^ P.iocodeW < 2 ^ 8 := Nat.lt_of_le_of_lt (Nat.mod_le _ _) c.isLt
  simp only [Params.code, BitVec.toNat_setWidth, Nat.mod_eq_of_lt h]

/-- A cause code of `IOCODE_W` 8 or more is the byte of `in_data` (log 25). -/
theorem Params.code_of_le {P : Params} (h : 8 ≤ P.iocodeW) (c : IoCode) : P.code c = c := by
  apply BitVec.eq_of_toNat_eq
  rw [Params.code_toNat, Nat.mod_eq_of_lt (Nat.lt_of_lt_of_le c.isLt (Nat.pow_le_pow_right (by decide) h))]

/-- This hardware's parameters meet the constraints of R6. -/
theorem hardware_legal : Config.hardware.Legal where
  bufcapHeader := by intro c h; cases h; decide
  bufcapPaywin := by intro c p h; cases h; simp [Config.hardware]
  paywinZero := rfl
  paywinLe := by intro p; simp [Config.hardware]; omega
  paywinTwo := by decide
  iocodePos := by decide
  storeHolds := by intro r d h; cases h

@[simp] theorem hardware_room (n : Nat) : Config.hardware.room n = decide (n < 8) := rfl
@[simp] theorem hardware_holds (n : Nat) : Config.hardware.holds n = decide (n ≤ 8) := rfl
@[simp] theorem hardware_fits (n : Nat) (len : U16) : Config.hardware.fits n len = true := rfl
@[simp] theorem hardware_code (c : IoCode) : Config.hardware.code c = c := Params.code_of_le (Nat.le_refl 8) c

end Sys2Proof

namespace Sys2Proof.Machine

open Sys2Proof

/-! ## Guards -/

/-- After a reset the first guard is transparent. -/
theorem State.whenReset_of {s : State} (h : s.rstSeen = true) (k : Out) : s.whenReset k = k := if_pos h

/-- Before the first reset there is no step. -/
theorem State.whenReset_not {s : State} (h : s.rstSeen = false) (k : Out) : s.whenReset k = .fault .beforeReset := by
  simp [State.whenReset, h]

/-- A next state comes only after a reset, from the guarded operation. -/
theorem State.whenReset_next {s t : State} {k : Out} : s.whenReset k = .next t ↔ s.rstSeen = true ∧ k = .next t := by
  unfold State.whenReset; split <;> simp [*]

theorem State.when_of {s : State} {p : Prop} [Decidable p] (h : p) (k : Out) : s.when p k = k := if_pos h

theorem State.when_not {s : State} {p : Prop} [Decidable p] (h : ¬ p) (k : Out) : s.when p k = .next s := if_neg h

/-- Either the guard holds and the operation runs, or nothing changes. -/
theorem State.when_next {s t : State} {p : Prop} [Decidable p] {k : Out} :
    s.when p k = .next t ↔ p ∧ k = .next t ∨ ¬ p ∧ t = s := by
  unfold State.when; split <;> simp [*, eq_comm]

/-! ## The reader -/

/-- A peek succeeds exactly when the bytes are there (R64). -/
theorem State.peekOutcome_ok {s : State} {n : Nat} : s.peekOutcome n = .ok ↔ n ≤ s.buf.length := by
  simp only [State.peekOutcome, State.avail, decide_eq_true_eq]
  split
  · simp [*]
  · split <;> simp_all

theorem State.peekOutcome_endOfStream {s : State} {n : Nat} :
    s.peekOutcome n = .endOfStream ↔ s.buf.length < n ∧ s.term = .eos := by
  simp only [State.peekOutcome, State.avail, decide_eq_true_eq]
  split
  · simp; omega
  · split <;> simp_all

theorem State.peekOutcome_ioError {s : State} {n : Nat} {c : IoCode} :
    s.peekOutcome n = .ioError c ↔ s.buf.length < n ∧ s.term = .ioErr c := by
  simp only [State.peekOutcome, State.avail, decide_eq_true_eq]
  split
  · simp; omega
  · split <;> simp_all

theorem State.peekOutcome_wait {s : State} {n : Nat} :
    s.peekOutcome n = .wait ↔ s.buf.length < n ∧ s.term = .opened := by
  simp only [State.peekOutcome, State.avail, decide_eq_true_eq]
  split
  · simp; omega
  · split <;> simp_all

/-- A byte is read exactly when one is buffered, and it is the head (R66). -/
theorem State.readByteOutcome_byte {s : State} {b : Byte} :
    s.readByteOutcome = .byte b ↔ s.buf = b :: s.buf.tail := by
  unfold State.readByteOutcome
  split
  · rename_i h; simp [h]
  · rename_i h; split <;> simp [h]

theorem State.readByteOutcome_short {s : State} : s.readByteOutcome = .short ↔ s.buf = [] ∧ s.term = .eos := by
  unfold State.readByteOutcome
  split
  · rename_i h; simp [h]
  · rename_i h; split <;> simp_all

theorem State.readByteOutcome_ioFail {s : State} {c : IoCode} :
    s.readByteOutcome = .ioFail c ↔ s.buf = [] ∧ s.term = .ioErr c := by
  unfold State.readByteOutcome
  split
  · rename_i h; simp [h]
  · rename_i h; split <;> simp_all

theorem State.readByteOutcome_wait {s : State} : s.readByteOutcome = .wait ↔ s.buf = [] ∧ s.term = .opened := by
  unfold State.readByteOutcome
  split
  · rename_i h; simp [h]
  · rename_i h; split <;> simp_all

theorem headerBytes_eq : Config.headerBytes = 8 := rfl

/-- The payload checkpoint of this hardware is met when no record is owed or a byte is there (R135). -/
theorem paywin_le_iff (p : U16) (bs : List Byte) : Config.hardware.paywin p ≤ bs.length ↔ p = 0 ∨ bs ≠ [] := by
  have hp : p = 0 ↔ p.toNat = 0 := by rw [← BitVec.toNat_inj]; simp
  rw [hp]
  cases bs <;> simp [Config.hardware]

/-- When a beat is accepted (R133). -/
theorem State.inReady_iff {P : Params} {s : State} {k : BitVec 2} :
    s.inReady P k = true ↔ s.term = .opened ∧ k ≠ 3 ∧ (k ≠ 0 ∨ P.room s.buf.length = true) := by
  simp only [State.inReady, and_assoc, Bool.and_eq_true, Bool.or_eq_true, bne_iff_ne, beq_iff_eq]

/-- A record is stored when it fits and refused otherwise. -/
theorem State.store_next {P : Params} {s t : State} {r : Record} {k : Out} :
    s.store P r k = .next t ↔ P.fits s.recs.length r.length = true ∧ k = .next t := by
  unfold State.store; split <;> simp [*]

/-- This hardware's store holds every record. -/
@[simp] theorem State.store_hardware (s : State) (r : Record) (k : Out) : s.store Config.hardware r k = k := rfl

/-! ## The templates -/

/-- The four things a consuming step can do (R137). -/
theorem State.consume_next {s t : State} {e : Err} {deliver : Byte → State → State}
    (h : s.consume e deliver = .next t) :
    (∃ b, s.buf = b :: s.buf.tail ∧ t = deliver b s.take) ∨
    (s.buf = [] ∧ s.term = .eos ∧ t = s.fail e) ∨
    (∃ c, s.buf = [] ∧ s.term = .ioErr c ∧ t = s.fail (.ioError c)) ∨
    (s.buf = [] ∧ s.term = .opened ∧ t = s) := by
  unfold State.consume at h
  split at h
  · rename_i b hb
    exact .inl ⟨b, State.readByteOutcome_byte.1 hb, by cases h; rfl⟩
  · rename_i hb
    have := State.readByteOutcome_short.1 hb
    exact .inr (.inl ⟨this.1, this.2, by cases h; rfl⟩)
  · rename_i c hb
    have := State.readByteOutcome_ioFail.1 hb
    exact .inr (.inr (.inl ⟨c, this.1, this.2, by cases h; rfl⟩))
  · rename_i hb
    have := State.readByteOutcome_wait.1 hb
    exact .inr (.inr (.inr ⟨this.1, this.2, by cases h; rfl⟩))

/-- A consuming step always answers a next state. -/
theorem State.consume_isNext (s : State) (e : Err) (deliver : Byte → State → State) :
    ∃ t, s.consume e deliver = .next t := by
  unfold State.consume; split <;> exact ⟨_, rfl⟩

/-- The two things a byte of an integer field can do (R151 to R153, R172). -/
theorem State.deliverInt_cases (w : Nat) (fin : U32 → State → State) (b : Byte) (s : State) :
    (s.cnt.toNat + 1 < w ∧ State.deliverInt w fin b s = { s with acc := s.accWith b, cnt := s.cnt + 1 }) ∨
    (w ≤ s.cnt.toNat + 1 ∧ State.deliverInt w fin b s = { fin (s.accWith b) s with acc := 0, cnt := 0 }) := by
  unfold State.deliverInt
  split
  · exact .inl ⟨‹_›, rfl⟩
  · exact .inr ⟨by omega, rfl⟩

/-- The four things a checkpoint can do (R134, R135). -/
theorem State.checkpoint_next {s t : State} {n : Nat} {wrap : Cause → Err} {proceed : State → State}
    (h : s.checkpoint n wrap proceed = .next t) :
    (n ≤ s.buf.length ∧ t = proceed s) ∨
    (s.buf.length < n ∧ s.term = .eos ∧ t = s.fail (wrap .endOfStream)) ∨
    (∃ c, s.buf.length < n ∧ s.term = .ioErr c ∧ t = s.fail (wrap (.ioError c))) ∨
    (s.buf.length < n ∧ s.term = .opened ∧ t = s) := by
  unfold State.checkpoint at h
  split at h
  · rename_i hb
    exact .inl ⟨State.peekOutcome_ok.1 hb, by cases h; rfl⟩
  · rename_i hb
    have := State.peekOutcome_endOfStream.1 hb
    exact .inr (.inl ⟨this.1, this.2, by cases h; rfl⟩)
  · rename_i c hb
    have := State.peekOutcome_ioError.1 hb
    exact .inr (.inr (.inl ⟨c, this.1, this.2, by cases h; rfl⟩))
  · rename_i hb
    have := State.peekOutcome_wait.1 hb
    exact .inr (.inr (.inr ⟨this.1, this.2, by cases h; rfl⟩))

/-- A checkpoint always answers a next state. -/
theorem State.checkpoint_isNext (s : State) (n : Nat) (wrap : Cause → Err) (proceed : State → State) :
    ∃ t, s.checkpoint n wrap proceed = .next t := by
  unfold State.checkpoint; split <;> exact ⟨_, rfl⟩

/-- A wire item is taken from the cursor, or nothing changes (log 5). -/
theorem State.wireItem_next {s t : State} {bs : List Byte} {p : Prop} [Decidable p] {k : State → Out}
    (h : s.wireItem bs p k = .next t) :
    s.rstSeen = true ∧
      ((p ∧ bs.isPrefixOf s.pending = true ∧ k (s.takeStream bs.length) = .next t) ∨
        (¬ (p ∧ bs.isPrefixOf s.pending = true) ∧ t = s)) := by
  obtain ⟨hr, h⟩ := State.whenReset_next.1 h
  obtain ⟨⟨hp, hb⟩, h⟩ | ⟨hp, h⟩ := State.when_next.1 h
  · exact ⟨hr, .inl ⟨hp, hb, h⟩⟩
  · exact ⟨hr, .inr ⟨hp, h⟩⟩

/-- A register read changes only what HOST received (R222). -/
theorem State.readReg_next {s t : State} {n : BitVec 4} (h : s.readReg n = .next t) :
    s.rstSeen = true ∧ t = s.setRdata (s.regRead n) := by
  obtain ⟨hr, h⟩ := State.whenReset_next.1 h
  exact ⟨hr, by cases h; rfl⟩

/-! ## The two spaces (R60) -/

theorem Memory.wf_iff {P : Params} {s : State} :
    Memory.wf P s = true ↔ P.holds s.buf.length = true ∧ ∀ r ∈ s.recs, r.data.length = r.length.toNat := by
  simp [Memory.wf, Record.wf]

theorem Memory.wf_reset (P : Params) : Memory.wf P State.reset = true := by
  rw [Memory.wf_iff]
  exact ⟨by unfold Params.holds; split <;> simp [State.reset], by simp [State.reset]⟩

/-- An accepted byte keeps the form. -/
theorem Memory.wf_push {P : Params} {s : State} (b : Byte) (h : Memory.wf P s = true) (hb : P.room s.buf.length = true) :
    Memory.wf P (s.push b) = true := by
  rw [Memory.wf_iff] at h ⊢
  rw [Params.room_eq_holds] at hb
  exact ⟨by simpa using hb, h.2⟩

theorem Memory.wf_take {P : Params} {s : State} (h : Memory.wf P s = true) : Memory.wf P s.take = true := by
  rw [Memory.wf_iff] at h ⊢
  exact ⟨Params.holds_mono (by simp) h.1, h.2⟩

theorem Memory.wf_takeStream {P : Params} {s : State} (n : Nat) (h : Memory.wf P s = true) :
    Memory.wf P (s.takeStream n) = true := by
  rw [Memory.wf_iff] at h ⊢
  exact ⟨Params.holds_mono (by simp) h.1, h.2⟩

/-- A commit keeps the form when the record's Data counts its Length. -/
theorem Memory.wf_commit {P : Params} {s : State} {r : Record} (h : Memory.wf P s = true)
    (hr : r.data.length = r.length.toNat) : Memory.wf P (s.commit r) = true := by
  rw [Memory.wf_iff] at h ⊢
  refine ⟨h.1, fun q hq => ?_⟩
  simp only [State.commit_recs, List.mem_append, List.mem_singleton] at hq
  exact hq.elim (h.2 q) fun hq => hq ▸ hr

theorem Memory.wf_beginDecode {P : Params} {s : State} (h : Memory.wf P s = true) : Memory.wf P s.beginDecode = true := by
  rw [Memory.wf_iff] at h ⊢
  exact ⟨h.1, by simp⟩

theorem Memory.wf_doReset (P : Params) (s : State) : Memory.wf P s.doReset = true := Memory.wf_reset P

theorem Memory.wf_fail {P : Params} {s : State} (e : Err) (h : Memory.wf P s = true) : Memory.wf P (s.fail e) = true := h

theorem Memory.wf_close {P : Params} {s : State} (t : Term) (h : Memory.wf P s = true) : Memory.wf P (s.close t) = true := h

theorem Memory.wf_setRdata {P : Params} {s : State} (v : U32) (h : Memory.wf P s = true) :
    Memory.wf P (s.setRdata v) = true := h

/-- A committed record does not disturb the bytes stored before it (R71). -/
theorem State.storeByte_commit {s : State} (r : Record) {i : Nat} (j : Nat) (h : i < s.recs.length) :
    (s.commit r).storeByte i j = s.storeByte i j := by
  simp [State.storeByte, List.getElem?_append_left h]

/-! ## The stream at the cursor -/

theorem dataPrefix_length_le (bs : List Beat) : (dataPrefix bs).length ≤ bs.length := by
  induction bs with
  | nil => simp [dataPrefix]
  | cons b bs ih => unfold dataPrefix; split <;> simp; omega

theorem dataPrefix_cons_data {b : Beat} (h : b.kind = 0) (bs : List Beat) :
    dataPrefix (b :: bs) = b.data :: dataPrefix bs := by simp [dataPrefix, h]

theorem dataPrefix_cons_other {b : Beat} (h : b.kind ≠ 0) (bs : List Beat) : dataPrefix (b :: bs) = [] := by
  rw [dataPrefix, if_neg h]

theorem dataPrefix_drop (bs : List Beat) {n : Nat} (h : n ≤ (dataPrefix bs).length) :
    dataPrefix (bs.drop n) = (dataPrefix bs).drop n := by
  induction bs generalizing n with
  | nil => simp [dataPrefix]
  | cons b bs ih =>
    cases n with
    | zero => simp
    | succ n =>
      by_cases hk : b.kind = 0
      · rw [dataPrefix_cons_data hk] at h ⊢
        exact ih (by simpa using h)
      · rw [dataPrefix_cons_other hk] at h; simp at h

/-- Taking `n` bytes of the stream leaves the stream without its first `n` bytes (R65, R67). -/
theorem State.pending_takeStream {s : State} {n : Nat} (h : n ≤ s.pending.length) :
    (s.takeStream n).pending = s.pending.drop n := by
  by_cases ht : s.term = .opened
  · simp only [State.pending, State.takeStream_buf, State.takeStream_term, State.takeStream_env, ht, if_true,
      List.length_append] at h ⊢
    rw [List.drop_append, dataPrefix_drop _ (by omega)]
  · simp [State.pending, ht]

/-! ## Byte order -/

theorem be_append (s : List Byte) (b : Byte) : be (s ++ [b]) = be s * 256 + b.toNat := by
  simp [be]

/-- `beN` is a right inverse of `be` (R112). -/
theorem be_beBytes (n v : Nat) (h : v < 256 ^ n) : be (beBytes n v) = v := by
  induction n generalizing v with
  | zero => simp [be, beBytes] at h ⊢; omega
  | succ n ih =>
    rw [beBytes, be_append, ih (v / 256) (by rw [pow_succ] at h; omega)]
    simp [BitVec.toNat_ofNat]; omega

@[simp] theorem beBytes_length (n v : Nat) : (beBytes n v).length = n := by
  induction n generalizing v with
  | zero => rfl
  | succ n ih => simp [beBytes, ih]

theorem u16_u16Bytes (v : U16) : u16 (u16Bytes v) = v := by
  have h : be (beBytes 2 v.toNat) = v.toNat := be_beBytes 2 v.toNat v.isLt
  simp [u16, u16Bytes, h]

theorem u32_u32Bytes (v : U32) : u32 (u32Bytes v) = v := by
  have h : be (beBytes 4 v.toNat) = v.toNat := be_beBytes 4 v.toNat v.isLt
  simp [u32, u32Bytes, h]

end Sys2Proof.Machine
end

