-- ==== Sys2Proof/Laws/Exec.lean ====
section
/-! SUPPORT. What one operation can do, said once: every next state of `execWith P` is one of the cases of `Effect P`;
`exec` is `execWith` at this hardware's parameters. -/

namespace Sys2Proof.Machine

open Sys2Proof

/-- PARSER's step `i` reads the field `s.fld` in `s`: its state, field and data guard hold. -/
def readsField (s : State) (i : Instr) : Prop :=
  (s.st = .hdrDec ∧
    (i = .hdrVersion ∧ s.fld = .version ∨ i = .hdrDeviceId ∧ s.fld = .deviceId ∨ i = .hdrPayloadLen ∧ s.fld = .payloadLen)) ∨
  (s.st = .payDec ∧
    (i = .recCommandId ∧ s.fld = .commandId ∧ s.ri.toNat < s.plen.toNat ∨ i = .recLength ∧ s.fld = .length ∨
      i = .recData ∧ s.fld = .data ∧ s.cnt.toNat < s.rlen.toNat))

/-- The error of a short read of the field (R137). -/
def shortErr (s : State) : Err :=
  if s.st = .hdrDec then .malformedHeader s.fld else .malformedRecord s.ri s.fld

/-- The next states of an operation under the parameters `P`, with what each needs. -/
inductive Effect (P : Params) (s : State) : Instr → State → Prop
  /-- a false guard, a wait, a beat not accepted -/
  | same (i) : i ≠ .reset → Effect P s i s
  | header (v d p) : s.st = .hdrDec ∧ s.fld = .version ∧ s.cnt = 0 →
      (wireBytes (.header v d p)).isPrefixOf s.pending = true →
      Effect P s (.header v d p)
        { s.takeStream 8 with ver := v, dev := d, plen := p, st := .awaitPay, fld := .payloadLen, acc := 0, cnt := 0 }
  | headerVersion (v) : s.st = .hdrDec ∧ s.fld = .version ∧ s.cnt = 0 →
      (wireBytes (.headerVersion v)).isPrefixOf s.pending = true →
      Effect P s (.headerVersion v) { s.takeStream 2 with ver := v, fld := .deviceId, acc := 0, cnt := 0 }
  | headerDeviceId (d) : s.st = .hdrDec ∧ s.fld = .deviceId ∧ s.cnt = 0 →
      (wireBytes (.headerDeviceId d)).isPrefixOf s.pending = true →
      Effect P s (.headerDeviceId d) { s.takeStream 4 with dev := d, fld := .payloadLen, acc := 0, cnt := 0 }
  | headerPayloadLen (p) : s.st = .hdrDec ∧ s.fld = .payloadLen ∧ s.cnt = 0 →
      (wireBytes (.headerPayloadLen p)).isPrefixOf s.pending = true →
      Effect P s (.headerPayloadLen p) { s.takeStream 2 with plen := p, st := .awaitPay, acc := 0, cnt := 0 }
  | record (c l d) : s.st = .payDec ∧ s.fld = .commandId ∧ s.ri.toNat < s.plen.toNat ∧ d.length = l.toNat →
      (wireBytes (.record c l d)).isPrefixOf s.pending = true → P.fits s.recs.length l = true →
      Effect P s (.record c l d)
        (State.commit { s.takeStream (wireBytes (.record c l d)).length with cid := c, rlen := l } ⟨c, l, d⟩)
  | recordCommandId (c) : s.st = .payDec ∧ s.fld = .commandId ∧ s.ri.toNat < s.plen.toNat →
      (wireBytes (.recordCommandId c)).isPrefixOf s.pending = true →
      Effect P s (.recordCommandId c) { s.takeStream 1 with cid := c, fld := .length, acc := 0, cnt := 0 }
  | recordLength (l) : s.st = .payDec ∧ s.fld = .length ∧ s.cnt = 0 →
      (wireBytes (.recordLength l)).isPrefixOf s.pending = true →
      Effect P s (.recordLength l) { s.takeStream 2 with rlen := l, fld := .data, dat := [], acc := 0, cnt := 0 }
  | recordData (d) : s.st = .payDec ∧ s.fld = .data ∧ s.cnt = 0 ∧ d.length = s.rlen.toNat →
      (wireBytes (.recordData d)).isPrefixOf s.pending = true →
      Effect P s (.recordData d) { s.takeStream d.length with dat := s.dat ++ d, cnt := s.rlen }
  | peekHdr : s.st = .awaitHdr → 8 ≤ s.buf.length →
      Effect P s .peekHdr { s with st := .hdrDec, fld := .version, cnt := 0, acc := 0 }
  | peekHdrFail (c) : s.st = .awaitHdr → s.buf.length < 8 →
      (s.term = .eos ∧ c = .endOfStream ∨ ∃ e, s.term = .ioErr e ∧ c = .ioError e) →
      Effect P s .peekHdr (s.fail (.headerFormatError c))
  | peekPay : s.st = .awaitPay → P.paywin s.plen ≤ s.buf.length →
      Effect P s .peekPay { s with st := .payDec, fld := .commandId, cnt := 0, acc := 0, ri := 0 }
  | peekPayFail (c) : s.st = .awaitPay → s.buf.length < P.paywin s.plen →
      (s.term = .eos ∧ c = .endOfStream ∨ ∃ e, s.term = .ioErr e ∧ c = .ioError e) →
      Effect P s .peekPay (s.fail (.dataLengthError c))
  /-- a short read or an I/O failure of the field being read -/
  | readFail (i e) : readsField s i → s.buf = [] →
      (s.term = .eos ∧ e = shortErr s ∨ ∃ c, s.term = .ioErr c ∧ e = .ioError c) → Effect P s i (s.fail e)
  /-- a byte of an integer field that is not its last -/
  | accumulate (i b bs) : readsField s i → i ≠ .recCommandId → i ≠ .recData → s.buf = b :: bs →
      s.cnt.toNat + 1 < s.fieldWidth s.fld →
      Effect P s i { s with buf := bs, pos := s.pos + 1, acc := s.accWith b, cnt := s.cnt + 1 }
  | hdrVersion (b bs) : s.st = .hdrDec → s.fld = .version → s.buf = b :: bs → 2 ≤ s.cnt.toNat + 1 →
      Effect P s .hdrVersion
        { s with buf := bs, pos := s.pos + 1, ver := (s.accWith b).setWidth 16, fld := .deviceId, acc := 0, cnt := 0 }
  | hdrDeviceId (b bs) : s.st = .hdrDec → s.fld = .deviceId → s.buf = b :: bs → 4 ≤ s.cnt.toNat + 1 →
      Effect P s .hdrDeviceId
        { s with buf := bs, pos := s.pos + 1, dev := s.accWith b, fld := .payloadLen, acc := 0, cnt := 0 }
  | hdrPayloadLen (b bs) : s.st = .hdrDec → s.fld = .payloadLen → s.buf = b :: bs → 2 ≤ s.cnt.toNat + 1 →
      Effect P s .hdrPayloadLen
        { s with buf := bs, pos := s.pos + 1, plen := (s.accWith b).setWidth 16, st := .awaitPay, acc := 0, cnt := 0 }
  | recCommandId (b bs) : s.st = .payDec → s.fld = .commandId → s.ri.toNat < s.plen.toNat → s.buf = b :: bs →
      Effect P s .recCommandId { s with buf := bs, pos := s.pos + 1, cid := b, fld := .length, acc := 0, cnt := 0 }
  | recLength (b bs) : s.st = .payDec → s.fld = .length → s.buf = b :: bs → 2 ≤ s.cnt.toNat + 1 →
      Effect P s .recLength
        { s with
          buf := bs, pos := s.pos + 1, rlen := (s.accWith b).setWidth 16, fld := .data, dat := [], acc := 0, cnt := 0 }
  | recData (b bs) : s.st = .payDec → s.fld = .data → s.cnt.toNat < s.rlen.toNat → s.buf = b :: bs →
      Effect P s .recData { s with buf := bs, pos := s.pos + 1, dat := s.dat ++ [b], cnt := s.cnt + 1 }
  | recCommit : s.st = .payDec → s.fld = .data → s.cnt = s.rlen → P.fits s.recs.length s.rlen = true →
      Effect P s .recCommit (s.commit ⟨s.cid, s.rlen, s.dat⟩)
  | assemble : s.st = .payDec → s.fld = .commandId → s.ri = s.plen → Effect P s .assemble { s with st := .done }
  | srcData (b) : s.term = .opened → P.room s.buf.length = true → Effect P s (.srcData b) (s.push b)
  | srcEos : s.term = .opened → Effect P s .srcEos (s.close .eos)
  | srcErr (c) : s.term = .opened → Effect P s (.srcErr c) (s.close (.ioErr (P.code c)))
  | start (w : U32) : w.getLsbD 0 = true → s.busy = false → Effect P s (.start w) s.beginDecode
  | recSel (w : U32) : Effect P s (.wrregRecSel w) { s with recSel := w.setWidth 16 }
  | recOff (w : U32) : Effect P s (.wrregRecOff w) { s with recOff := w.setWidth 16 }
  /-- a register read -/
  | read (i n) : instrFormat i = .host → (∀ w, i ≠ .start w) → i ≠ .reset → (∀ w, i ≠ .wrregRecSel w) →
      (∀ w, i ≠ .wrregRecOff w) → Effect P s i (s.setRdata (s.regRead n))
  | reset : Effect P s .reset s.doReset

/-! ## The bytes an item takes -/

theorem wireBytes_header_length (v : U16) (d : U32) (p : U16) : (wireBytes (.header v d p)).length = 8 := by
  simp [wireBytes, u16Bytes, u32Bytes]

theorem wireBytes_headerVersion_length (v : U16) : (wireBytes (.headerVersion v)).length = 2 := by
  simp [wireBytes, u16Bytes]

theorem wireBytes_headerDeviceId_length (d : U32) : (wireBytes (.headerDeviceId d)).length = 4 := by
  simp [wireBytes, u32Bytes]

theorem wireBytes_headerPayloadLen_length (p : U16) : (wireBytes (.headerPayloadLen p)).length = 2 := by
  simp [wireBytes, u16Bytes]

theorem wireBytes_record_length (c : Byte) (l : U16) (d : List Byte) :
    (wireBytes (.record c l d)).length = 3 + d.length := by simp [wireBytes, u16Bytes]; omega

theorem wireBytes_recordLength_length (l : U16) : (wireBytes (.recordLength l)).length = 2 := by
  simp [wireBytes, u16Bytes]

/-! ## The inversion -/

/-- What a consuming step can do, in the terms of `Effect`. -/
theorem Effect.of_consume {P : Params} {s t : State} {i : Instr} {deliver : Byte → State → State} {e : Err}
    (hi : readsField s i) (he : e = shortErr s) (hd : ∀ b bs, s.buf = b :: bs → Effect P s i (deliver b s.take))
    (h : s.consume e deliver = .next t) : Effect P s i t := by
  have hr : i ≠ .reset := by
    rintro rfl; simp [readsField] at hi
  obtain ⟨b, h1, rfl⟩ | ⟨h1, h2, rfl⟩ | ⟨c, h1, h2, rfl⟩ | ⟨h1, h2, rfl⟩ := State.consume_next h
  · exact hd b _ h1
  · exact .readFail i e hi h1 (.inl ⟨h2, he⟩)
  · exact .readFail i _ hi h1 (.inr ⟨c, h2, rfl⟩)
  · exact .same i hr

/-- What a checkpoint can do, in the terms of `Effect`. -/
theorem Effect.of_checkpoint {P : Params} {s t : State} {i : Instr} {n : Nat} {wrap : Cause → Err} {proceed : State → State}
    (hi : i ≠ .reset) (hp : n ≤ s.buf.length → Effect P s i (proceed s))
    (hf : ∀ c, s.buf.length < n → (s.term = .eos ∧ c = .endOfStream ∨ ∃ e, s.term = .ioErr e ∧ c = .ioError e) →
      Effect P s i (s.fail (wrap c)))
    (h : s.checkpoint n wrap proceed = .next t) : Effect P s i t := by
  obtain ⟨h1, rfl⟩ | ⟨h1, h2, rfl⟩ | ⟨c, h1, h2, rfl⟩ | ⟨h1, h2, rfl⟩ := State.checkpoint_next h
  · exact hp h1
  · exact hf _ h1 (.inl ⟨h2, rfl⟩)
  · exact hf _ h1 (.inr ⟨c, h2, rfl⟩)
  · exact .same i hi

/-- An operation behind the two guards either does nothing or runs. -/
theorem Effect.of_guards {P : Params} {s t : State} {i : Instr} {p : Prop} [Decidable p] {k : Out} (hi : i ≠ .reset)
    (hk : p → k = .next t → Effect P s i t) (h : s.whenReset (s.when p k) = .next t) : Effect P s i t := by
  obtain ⟨-, h⟩ := State.whenReset_next.1 h
  obtain ⟨hp, h⟩ | ⟨-, rfl⟩ := State.when_next.1 h
  · exact hk hp h
  · exact .same i hi

/-- A wire item is taken from the cursor or nothing changes. -/
theorem Effect.of_wireItem {P : Params} {s t : State} {i : Instr} {bs : List Byte} {p : Prop} [Decidable p] {k : State → Out}
    (hi : i ≠ .reset) (hk : p → bs.isPrefixOf s.pending = true → k (s.takeStream bs.length) = .next t → Effect P s i t)
    (h : s.wireItem bs p k = .next t) : Effect P s i t := by
  obtain ⟨-, ⟨h1, h2, h3⟩ | ⟨-, rfl⟩⟩ := State.wireItem_next h
  · exact hk h1 h2 h3
  · exact .same i hi

/-- Every next state of `execWith P` is a case of `Effect P`. -/
theorem execWith_effect {P : Params} {i : Instr} {s t : State} (h : execWith P i s = .next t) : Effect P s i t := by
  cases i
  case header v d p =>
    simp only [execWith, execHeader] at h
    refine .of_wireItem (by simp) (fun h1 h2 h3 => ?_) h
    rw [wireBytes_header_length] at h3; cases h3; exact .header v d p h1 h2
  case headerVersion v =>
    simp only [execWith, execHeaderVersion] at h
    refine .of_wireItem (by simp) (fun h1 h2 h3 => ?_) h
    rw [wireBytes_headerVersion_length] at h3; cases h3; exact .headerVersion v h1 h2
  case headerDeviceId v =>
    simp only [execWith, execHeaderDeviceId] at h
    refine .of_wireItem (by simp) (fun h1 h2 h3 => ?_) h
    rw [wireBytes_headerDeviceId_length] at h3; cases h3; exact .headerDeviceId v h1 h2
  case headerPayloadLen v =>
    simp only [execWith, execHeaderPayloadLen] at h
    refine .of_wireItem (by simp) (fun h1 h2 h3 => ?_) h
    rw [wireBytes_headerPayloadLen_length] at h3; cases h3; exact .headerPayloadLen v h1 h2
  case record c l d =>
    simp only [execWith, execRecordWith] at h
    refine .of_wireItem (by simp) (fun h1 h2 h3 => ?_) h
    obtain ⟨h4, h3⟩ := State.store_next.1 h3
    cases h3; exact .record c l d h1 h2 h4
  case recordCommandId c =>
    simp only [execWith, execRecordCommandId] at h
    refine .of_wireItem (by simp) (fun h1 h2 h3 => ?_) h
    cases h3; exact .recordCommandId c h1 h2
  case recordLength l =>
    simp only [execWith, execRecordLength] at h
    refine .of_wireItem (by simp) (fun h1 h2 h3 => ?_) h
    rw [wireBytes_recordLength_length] at h3; cases h3; exact .recordLength l h1 h2
  case recordData d =>
    simp only [execWith, execRecordData] at h
    refine .of_wireItem (by simp) (fun h1 h2 h3 => ?_) h
    cases h3; exact .recordData d h1 h2
  case peekHdr =>
    simp only [execWith, execPeekHdr] at h
    exact .of_guards (by simp) (fun hp h =>
      .of_checkpoint (by simp) (fun h1 => .peekHdr hp h1) (fun c h1 h2 => .peekHdrFail c hp h1 h2) h) h
  case peekPay =>
    simp only [execWith, execPeekPayWith] at h
    exact .of_guards (by simp) (fun hp h =>
      .of_checkpoint (by simp) (fun h1 => .peekPay hp h1) (fun c h1 h2 => .peekPayFail c hp h1 h2) h) h
  case hdrVersion =>
    simp only [execWith, execHdrVersion] at h
    refine .of_guards (by simp) (fun hp h => ?_) h
    have hi : readsField s .hdrVersion := .inl ⟨hp.1, .inl ⟨rfl, hp.2⟩⟩
    refine .of_consume hi (by simp [shortErr, hp]) (fun b bs hb => ?_) h
    obtain ⟨h3, h4⟩ | ⟨h3, h4⟩ :=
      State.deliverInt_cases 2 (fun v (t : State) => { t with ver := v.setWidth 16, fld := .deviceId }) b s.take
    · rw [h4]; simpa [State.take, hb, State.accWith] using
        Effect.accumulate _ b bs hi (by simp) (by simp) hb (by simpa [hp.2, State.fieldWidth] using h3)
    · rw [h4]; simpa [State.take, hb, State.accWith] using Effect.hdrVersion b bs hp.1 hp.2 hb h3
  case hdrDeviceId =>
    simp only [execWith, execHdrDeviceId] at h
    refine .of_guards (by simp) (fun hp h => ?_) h
    have hi : readsField s .hdrDeviceId := .inl ⟨hp.1, .inr (.inl ⟨rfl, hp.2⟩)⟩
    refine .of_consume hi (by simp [shortErr, hp]) (fun b bs hb => ?_) h
    obtain ⟨h3, h4⟩ | ⟨h3, h4⟩ :=
      State.deliverInt_cases 4 (fun v (t : State) => { t with dev := v, fld := .payloadLen }) b s.take
    · rw [h4]; simpa [State.take, hb, State.accWith] using
        Effect.accumulate _ b bs hi (by simp) (by simp) hb (by simpa [hp.2, State.fieldWidth] using h3)
    · rw [h4]; simpa [State.take, hb, State.accWith] using Effect.hdrDeviceId b bs hp.1 hp.2 hb h3
  case hdrPayloadLen =>
    simp only [execWith, execHdrPayloadLen] at h
    refine .of_guards (by simp) (fun hp h => ?_) h
    have hi : readsField s .hdrPayloadLen := .inl ⟨hp.1, .inr (.inr ⟨rfl, hp.2⟩)⟩
    refine .of_consume hi (by simp [shortErr, hp]) (fun b bs hb => ?_) h
    obtain ⟨h3, h4⟩ | ⟨h3, h4⟩ :=
      State.deliverInt_cases 2 (fun v (t : State) => { t with plen := v.setWidth 16, st := .awaitPay }) b s.take
    · rw [h4]; simpa [State.take, hb, State.accWith] using
        Effect.accumulate _ b bs hi (by simp) (by simp) hb (by simpa [hp.2, State.fieldWidth] using h3)
    · rw [h4]; simpa [State.take, hb, State.accWith] using Effect.hdrPayloadLen b bs hp.1 hp.2 hb h3
  case recCommandId =>
    simp only [execWith, execRecCommandId] at h
    refine .of_guards (by simp) (fun hp h => ?_) h
    refine .of_consume (.inr ⟨hp.1, .inl ⟨rfl, hp.2⟩⟩) (by simp [shortErr, hp]) (fun b bs hb => ?_) h
    simpa [State.take, hb] using Effect.recCommandId b bs hp.1 hp.2.1 hp.2.2 hb
  case recLength =>
    simp only [execWith, execRecLength] at h
    refine .of_guards (by simp) (fun hp h => ?_) h
    have hi : readsField s .recLength := .inr ⟨hp.1, .inr (.inl ⟨rfl, hp.2⟩)⟩
    refine .of_consume hi (by simp [shortErr, hp]) (fun b bs hb => ?_) h
    obtain ⟨h3, h4⟩ | ⟨h3, h4⟩ :=
      State.deliverInt_cases 2 (fun v (t : State) => { t with rlen := v.setWidth 16, fld := .data, dat := [] }) b s.take
    · rw [h4]; simpa [State.take, hb, State.accWith] using
        Effect.accumulate _ b bs hi (by simp) (by simp) hb (by simpa [hp.2, State.fieldWidth] using h3)
    · rw [h4]; simpa [State.take, hb, State.accWith] using Effect.recLength b bs hp.1 hp.2 hb h3
  case recData =>
    simp only [execWith, execRecData] at h
    refine .of_guards (by simp) (fun hp h => ?_) h
    refine .of_consume (.inr ⟨hp.1, .inr (.inr ⟨rfl, hp.2⟩)⟩) (by simp [shortErr, hp]) (fun b bs hb => ?_) h
    simpa [State.take, hb] using Effect.recData b bs hp.1 hp.2.1 hp.2.2 hb
  case recCommit =>
    simp only [execWith, execRecCommitWith] at h
    refine .of_guards (by simp) (fun hp h => ?_) h
    obtain ⟨h1, h⟩ := State.store_next.1 h
    cases h; exact .recCommit hp.1 hp.2.1 hp.2.2 h1
  case assemble =>
    simp only [execWith, execAssemble] at h
    refine .of_guards (by simp) (fun hp h => ?_) h
    cases h; exact .assemble hp.1 hp.2.1 hp.2.2
  case srcData b =>
    simp only [execWith, execSrcDataWith] at h
    refine .of_guards (by simp) (fun hp h => ?_) h
    cases h; exact .srcData b hp.1 hp.2
  case srcEos =>
    simp only [execWith, execSrcEos] at h
    refine .of_guards (by simp) (fun hp h => ?_) h
    cases h; exact .srcEos hp
  case srcErr c =>
    simp only [execWith, execSrcErrWith] at h
    refine .of_guards (by simp) (fun hp h => ?_) h
    cases h; exact .srcErr c hp
  case srcReserved =>
    simp only [execWith, execSrcReserved] at h
    obtain ⟨-, h⟩ := State.whenReset_next.1 h
    cases h; exact .same _ (by simp)
  case start w =>
    simp only [execWith, execStart] at h
    refine .of_guards (by simp) (fun hp h => ?_) h
    cases h; exact .start w hp.1 hp.2
  case wrregRecSel w =>
    simp only [execWith, execWrregRecSel] at h
    obtain ⟨-, h⟩ := State.whenReset_next.1 h
    cases h; exact .recSel w
  case wrregRecOff w =>
    simp only [execWith, execWrregRecOff] at h
    obtain ⟨-, h⟩ := State.whenReset_next.1 h
    cases h; exact .recOff w
  case reset =>
    simp only [execWith, execReset] at h
    cases h; exact .reset
  all_goals
    simp only [execWith, execRdregCtrl, execRdregStatus, execRdregErr, execRdregHdrVersion, execRdregHdrDeviceId,
      execRdregHdrPayloadLen, execRdregRecCount, execRdregRecSel, execRdregRecCmd, execRdregRecLen, execRdregRecOff,
      execRdregRecData, execRdregReserved] at h
    obtain ⟨-, rfl⟩ := State.readReg_next h
    exact .read _ _ rfl (by simp) (by simp) (by simp) (by simp)

/-! ## This hardware -/

/-- `exec` is the parametric machine's operation at this hardware's parameters (R6, R49). -/
theorem exec_eq_execWith (i : Instr) (s : State) : exec i s = execWith Config.hardware i s := by cases i <;> rfl

/-- `step` is the parametric machine's step at this hardware's parameters. -/
theorem step_eq_stepWith (s : State) : step s = stepWith Config.hardware s := by
  simp only [step, stepWith, turnStep, exec_eq_execWith]

/-- Every next state of `exec` is a case of `Effect Config.hardware`. -/
theorem exec_effect {i : Instr} {s t : State} (h : exec i s = .next t) : Effect Config.hardware s i t :=
  execWith_effect (exec_eq_execWith i s ▸ h)

end Sys2Proof.Machine
end

