-- ==== Sys2Proof/Laws/PerInstr.lean ====
section
/-! SUPPORT. One lemma per instruction: its word is a word of its row's format (30_encoding R107). -/

namespace Sys2Proof.Laws.Selector

open Sys2Proof

/-- The word an instruction encodes to has the format of the instruction's row. -/
def Statement (i : Instr) : Prop := wordFormat (encode i) = instrFormat i

theorem header (v : U16) (d : U32) (p : U16) : Statement (.header v d p) := rfl
theorem headerVersion (v : U16) : Statement (.headerVersion v) := rfl
theorem headerDeviceId (d : U32) : Statement (.headerDeviceId d) := rfl
theorem headerPayloadLen (p : U16) : Statement (.headerPayloadLen p) := rfl
theorem record (c : Byte) (l : U16) (d : List Byte) : Statement (.record c l d) := rfl
theorem recordCommandId (c : Byte) : Statement (.recordCommandId c) := rfl
theorem recordLength (l : U16) : Statement (.recordLength l) := rfl
theorem recordData (d : List Byte) : Statement (.recordData d) := rfl
theorem peekHdr : Statement .peekHdr := rfl
theorem hdrVersion : Statement .hdrVersion := rfl
theorem hdrDeviceId : Statement .hdrDeviceId := rfl
theorem hdrPayloadLen : Statement .hdrPayloadLen := rfl
theorem peekPay : Statement .peekPay := rfl
theorem assemble : Statement .assemble := rfl
theorem recCommandId : Statement .recCommandId := rfl
theorem recLength : Statement .recLength := rfl
theorem recData : Statement .recData := rfl
theorem recCommit : Statement .recCommit := rfl
theorem srcData (b : Byte) : Statement (.srcData b) := rfl
theorem srcEos : Statement .srcEos := rfl
theorem srcErr (c : IoCode) : Statement (.srcErr c) := rfl
theorem srcReserved : Statement .srcReserved := rfl
theorem start (w : U32) : Statement (.start w) := rfl
theorem wrregRecSel (w : U32) : Statement (.wrregRecSel w) := rfl
theorem wrregRecOff (w : U32) : Statement (.wrregRecOff w) := rfl
theorem rdregCtrl : Statement .rdregCtrl := rfl
theorem rdregStatus : Statement .rdregStatus := rfl
theorem rdregErr : Statement .rdregErr := rfl
theorem rdregHdrVersion : Statement .rdregHdrVersion := rfl
theorem rdregHdrDeviceId : Statement .rdregHdrDeviceId := rfl
theorem rdregHdrPayloadLen : Statement .rdregHdrPayloadLen := rfl
theorem rdregRecCount : Statement .rdregRecCount := rfl
theorem rdregRecSel : Statement .rdregRecSel := rfl
theorem rdregRecCmd : Statement .rdregRecCmd := rfl
theorem rdregRecLen : Statement .rdregRecLen := rfl
theorem rdregRecOff : Statement .rdregRecOff := rfl
theorem rdregRecData : Statement .rdregRecData := rfl
theorem rdregReserved (n : BitVec 4) : Statement (.rdregReserved n) := rfl
theorem reset : Statement .reset := rfl

end Sys2Proof.Laws.Selector
end

