-- ==== Sys2Proof/Tests/Slice0.lean ====
section
/-! SUPPORT. Tests: ill-formed terms are refused; every operation's word, written out from the spec's tables, decodes to it;
single steps against the vectors of 95_test_vectors; and, for every obligation with hypotheses, states that meet them. -/

namespace Sys2Proof.Tests

open Sys2Proof Sys2Proof.Machine

/-! ## Small states -/

/-- The reset state with the parser at `(st, fld)`. -/
def at' (st : St) (fld : Fld) : State := { State.reset with st := st, fld := fld }

/-- The state with a buffer and a terminator. -/
def reader (s : State) (buf : List Byte) (term : Term) : State := { s with buf := buf, term := term }

/-- The state with one turn given and the agents' queues. -/
def agents (s : State) (turns : List Turn) (source : List Beat) (host : List HostReq) : State :=
  { s with env := { turns := turns, source := source, host := host, rdata := 0 } }

/-- The next state, if there is one. -/
def after (o : Out) : Option State :=
  match o with
  | .next s => some s
  | .fault _ => none
  | .refused _ => none

/-- What HOST receives from an operation. -/
def received (o : Out) : Option U32 := (after o).map fun t => t.env.rdata

/-- DATA beats. -/
def dataBeats (bs : List Byte) : List Beat := bs.map fun b => ⟨0, b⟩

/-- PAY_DEC with one record owed. -/
def owed (fld : Fld) : State := { at' .payDec fld with plen := 1 }

/-- The frame of D-F1 and P1. -/
def frameF1 : Frame := ⟨⟨1, 10, 2⟩, [⟨7, 2, [0xAA, 0xBB]⟩, ⟨9, 0, []⟩]⟩

/-- P1's end state, as far as HOST reads it. -/
def doneF1 : State :=
  { at' .done .commandId with
    term := .eos, pos := 16, ver := 1, dev := 10, plen := 2, ri := 2, cid := 9, recs := frameF1.records }

/-- The other instantiation that D5 names, with an infinite buffer, a narrow cause code and the least bounded store. -/
def wide : Params where
  bufcap := none
  paywin := fun p => p.toNat
  iocodeW := 4
  store := .bounded 65535 65535

/-- A store of one record of one data byte, which R6 does not allow. -/
def tiny : Params := { Config.hardware with store := .bounded 1 1 }

/-! ## WellFormed refuses -/

/-- R92, R110: a record whose Length does not count its Data. -/
theorem test_wf_record : WellFormed (.record 7 2 [0xAA]) = false ∧ WellFormed (.record 7 2 [0xAA, 0xBB]) = true := by decide

/-- R7: a Data item of 65536 bytes; 65535 are the most. -/
theorem test_wf_recordData :
    WellFormed (.recordData (List.replicate 65536 0)) = false ∧
    WellFormed (.recordData (List.replicate 65535 0)) = true := by
  simp only [WellFormed, List.length_replicate]; decide

/-- R106: 11 is not a reserved register number. -/
theorem test_wf_rdregReserved : WellFormed (.rdregReserved 11) = false ∧ WellFormed (.rdregReserved 12) = true := by decide

/-! ## Decoding, words written out from the spec -/

/-- R91, vector D-H3. -/
theorem test_decode_header :
    decode (.wire .header [0xFF, 0xFF, 0xDE, 0xAD, 0xBE, 0xEF, 0x00, 0x00]) = .ok (.header 65535 3735928559 0) [] := by
  decide

/-- R91, R94, vectors D-H5 and D-H8: each field alone, most significant byte first. -/
theorem test_decode_header_fields :
    decode (.wire .headerVersion [0x01, 0x00, 0x55]) = .ok (.headerVersion 256) [0x55] ∧
    decode (.wire .headerDeviceId [0x56, 0x78, 0x9A, 0xBC]) = .ok (.headerDeviceId 0x56789ABC) [] ∧
    decode (.wire .headerPayloadLen [0x01, 0x00]) = .ok (.headerPayloadLen 256) [] := by decide

/-- R92, vectors D-R1, D-R2, D-R3, each with a byte after it. -/
theorem test_decode_record :
    decode (.wire .record [0x07, 0x00, 0x02, 0xAA, 0xBB, 0x09]) = .ok (.record 7 2 [0xAA, 0xBB]) [0x09] ∧
    decode (.wire .record [0xFF, 0x00, 0x00, 0x09]) = .ok (.record 255 0 []) [0x09] ∧
    decode (.wire .record [0x00, 0x00, 0x01, 0x00, 0x09]) = .ok (.record 0 1 [0x00]) [0x09] := by decide

/-- R92, R95: each field alone. -/
theorem test_decode_record_fields :
    decode (.wire .recordCommandId [0x07, 0x00]) = .ok (.recordCommandId 7) [0x00] ∧
    decode (.wire .recordLength [0x01, 0x00]) = .ok (.recordLength 256) [] ∧
    decode (.wire (.recordData 2) [0xAA, 0xBB, 0x09]) = .ok (.recordData [0xAA, 0xBB]) [0x09] := by decide

/-- Bytes that end before the item does. -/
theorem test_decode_truncated :
    decode (.wire .header [0, 0, 0, 0, 0, 0, 0]) = .reject .truncated ∧
    decode (.wire .record [0x07, 0x00, 0x02, 0xAA]) = .reject .truncated ∧
    decode (.wire (.recordData 1) []) = .reject .truncated := by decide

/-- R100, vectors D-C1 to D-C4: `cw = 8 st + fld`. -/
theorem test_decode_steps :
    decode (.step 0b001000 0 0 0 0) = .ok .peekHdr [] ∧
    decode (.step 0b001011 0 0 0 0) = .ok .peekHdr [] ∧
    decode (.step 0b010000 0 0 0 0) = .ok .hdrVersion [] ∧
    decode (.step 0b010001 0 0 0 0) = .ok .hdrDeviceId [] ∧
    decode (.step 0b010010 0 0 0 0) = .ok .hdrPayloadLen [] ∧
    decode (.step 0b011010 0 0 0 0) = .ok .peekPay [] := by decide

/-- R100, vectors D-C5 to D-C8: the rows with a data guard. -/
theorem test_decode_guarded_steps :
    decode (.step 0b100011 0 0 0 0) = .ok .assemble [] ∧
    decode (.step 0b100011 1 2 0 0) = .ok .recCommandId [] ∧
    decode (.step 0b100100 0 1 0 0) = .ok .recLength [] ∧
    decode (.step 0b100101 0 1 0 0) = .ok .recCommit [] ∧
    decode (.step 0b100101 0 1 1 2) = .ok .recData [] := by decide

/-- R100, R101, vectors D-C9 to D-C11, and words that no row matches or whose guard fails. -/
theorem test_decode_no_step :
    decode (.step 0b101000 0 0 0 0) = .reject .noParserStep ∧
    decode (.step 0b110111 0 0 0 0) = .reject .noParserStep ∧
    decode (.step 0b000000 0 0 0 0) = .reject .noParserStep ∧
    decode (.step 0b010011 0 0 0 0) = .reject .reservedControlWord ∧
    decode (.step 0b100000 0 0 0 0) = .reject .reservedControlWord ∧
    decode (.step 0b111000 0 0 0 0) = .reject .reservedControlWord ∧
    decode (.step 0b100011 3 2 0 0) = .reject .guardFails := by decide

/-- R105. -/
theorem test_decode_beats :
    decode (.beat 0b00 0xFF) = .ok (.srcData 0xFF) [] ∧
    decode (.beat 0b01 0xFF) = .ok .srcEos [] ∧
    decode (.beat 0b10 0x2A) = .ok (.srcErr 0x2A) [] ∧
    decode (.beat 0b11 0xFF) = .ok .srcReserved [] := by decide

/-- R106: writes. -/
theorem test_decode_writes :
    decode (.host true 0b0000 1) = .ok (.start 1) [] ∧
    decode (.host true 0b0111 5) = .ok (.wrregRecSel 5) [] ∧
    decode (.host true 0b1010 6) = .ok (.wrregRecOff 6) [] ∧
    decode (.host true 0b0001 1) = .reject .unlistedWrite ∧
    decode (.host true 0b1111 1) = .reject .unlistedWrite := by decide

/-- R106: reads of registers 0 to 6. -/
theorem test_decode_reads_low :
    decode (.host false 0b0000 0) = .ok .rdregCtrl [] ∧
    decode (.host false 0b0001 0) = .ok .rdregStatus [] ∧
    decode (.host false 0b0010 0) = .ok .rdregErr [] ∧
    decode (.host false 0b0011 0) = .ok .rdregHdrVersion [] ∧
    decode (.host false 0b0100 0) = .ok .rdregHdrDeviceId [] ∧
    decode (.host false 0b0101 0) = .ok .rdregHdrPayloadLen [] ∧
    decode (.host false 0b0110 0) = .ok .rdregRecCount [] := by decide

/-- R106: reads of registers 7 to 15. -/
theorem test_decode_reads_high :
    decode (.host false 0b0111 0) = .ok .rdregRecSel [] ∧
    decode (.host false 0b1000 0) = .ok .rdregRecCmd [] ∧
    decode (.host false 0b1001 0) = .ok .rdregRecLen [] ∧
    decode (.host false 0b1010 0) = .ok .rdregRecOff [] ∧
    decode (.host false 0b1011 0) = .ok .rdregRecData [] ∧
    decode (.host false 0b1100 0) = .ok (.rdregReserved 12) [] ∧
    decode (.host false 0b1111 0) = .ok (.rdregReserved 15) [] := by decide

/-- R106, R224. -/
theorem test_decode_rst : decode (.rst true) = .ok .reset [] ∧ decode (.rst false) = .reject .resetLow := by decide

/-- Vector D-F1 the other way: `enc` of the frame. -/
theorem test_encode_frame :
    encFrame frameF1 =
      [0x00, 0x01, 0x00, 0x00, 0x00, 0x0A, 0x00, 0x02, 0x07, 0x00, 0x02, 0xAA, 0xBB, 0x09, 0x00, 0x00] := by decide

/-! ## Single steps: SOURCE (95_test_vectors 2.1) -/

/-- D-S2 and D-S3: the eighth byte is taken, the ninth is not. -/
theorem test_srcData :
    (after (exec (.srcData 0xFF) (reader State.reset [1, 2, 3, 4, 5, 6, 7] .opened))).map (fun t => t.buf) =
      some [1, 2, 3, 4, 5, 6, 7, 0xFF] ∧
    (after (exec (.srcData 0x01) (reader State.reset [1, 2, 3, 4, 5, 6, 7, 8] .opened))).map (fun t => t.buf) =
      some [1, 2, 3, 4, 5, 6, 7, 8] := by decide

/-- D-S6: nothing is taken after the close. -/
theorem test_srcData_closed :
    (after (exec (.srcData 0x01) (reader State.reset [0xAA] .eos))).map (fun t => (t.buf, t.term)) =
      some ([0xAA], .eos) := by decide

/-- D-S4 and D-S8. -/
theorem test_srcEos :
    (after (exec .srcEos (reader State.reset [1, 2, 3, 4, 5, 6, 7, 8] .opened))).map (fun t => (t.buf, t.term)) =
      some ([1, 2, 3, 4, 5, 6, 7, 8], .eos) ∧
    (after (exec .srcEos (reader State.reset [] (.ioErr 7)))).map (fun t => t.term) = some (.ioErr 7) := by decide

/-- D-S5, D-S7 and D-S11. -/
theorem test_srcErr :
    (after (exec (.srcErr 0x2A) (reader State.reset [1, 2, 3, 4, 5, 6, 7, 8] .opened))).map (fun t => t.term) =
      some (.ioErr 0x2A) ∧
    (after (exec (.srcErr 7) (reader State.reset [] .eos))).map (fun t => t.term) = some .eos ∧
    (after (exec (.srcErr 0) State.reset)).map (fun t => t.term) = some (.ioErr 0) := by decide

/-- D-S9: a beat of the reserved kind stays in SOURCE's hands. -/
theorem test_srcReserved :
    (after (step (agents State.reset [.source] [⟨3, 0x55⟩] []))).map (fun t => (t.buf, t.term, t.env.source)) =
      some ([], .opened, [⟨3, 0x55⟩]) := by decide

/-- D-S3 by a step: the stalled byte is held, and D-S2: an accepted one has left. -/
theorem test_beat_held :
    (after (step (agents (reader State.reset [1, 2, 3, 4, 5, 6, 7, 8] .opened) [.source] [⟨0, 1⟩] []))).map
      (fun t => t.env.source) = some [⟨0, 1⟩] ∧
    (after (step (agents State.reset [.source] [⟨0, 1⟩] []))).map (fun t => (t.buf, t.env.source)) = some ([1], []) := by
  decide

/-! ## Single steps: the two outcomes (95_test_vectors 2.2) -/

/-- D-K2, D-K4, D-K5, D-K6. -/
theorem test_peekOutcome_header :
    (reader State.reset [1, 2, 3, 4, 5, 6, 7, 8] .eos).peekOutcome 8 = .ok ∧
    (reader State.reset [1, 2, 3, 4, 5, 6, 7] .opened).peekOutcome 8 = .wait ∧
    (reader State.reset [1, 2, 3, 4, 5, 6, 7] .eos).peekOutcome 8 = .endOfStream ∧
    (reader State.reset [1, 2, 3, 4, 5, 6, 7] (.ioErr 5)).peekOutcome 8 = .ioError 5 := by decide

/-- D-K8, D-K10, D-K11, D-K12. -/
theorem test_peekOutcome_small :
    (reader State.reset [] .eos).peekOutcome 0 = .ok ∧
    (reader State.reset [] .opened).peekOutcome 1 = .wait ∧
    (reader State.reset [] .eos).peekOutcome 1 = .endOfStream ∧
    (reader State.reset [1] .eos).peekOutcome 1 = .ok := by decide

/-- D-B2 to D-B5. -/
theorem test_readByteOutcome :
    (reader State.reset [7] .eos).readByteOutcome = .byte 7 ∧
    (reader State.reset [] .eos).readByteOutcome = .short ∧
    (reader State.reset [] (.ioErr 0x2A)).readByteOutcome = .ioFail 0x2A ∧
    (reader State.reset [] .opened).readByteOutcome = .wait := by decide

/-! ## Single steps: PARSER -/

/-- S4, D-E1: fewer than eight bytes and an end of stream; the bytes stay. -/
theorem test_peekHdr_fails :
    (after (exec .peekHdr (reader (at' .awaitHdr .version) [0x00] .eos))).map (fun t => (t.st, t.err, t.buf, t.pos)) =
      some (.failed, some (.headerFormatError .endOfStream), [0x00], 0) := by decide

/-- S7, step 3. -/
theorem test_peekHdr_ok :
    (after (exec .peekHdr (reader (at' .awaitHdr .version) [0, 1, 0, 0, 0, 0x0A, 0, 0] .eos))).map
      (fun t => (t.st, t.fld, t.pos)) = some (.hdrDec, .version, 0) := by decide

/-- D-H2: eight bytes, PayloadLen 2, nothing more. -/
theorem test_peekPay_fails :
    (after (exec .peekPay (reader { at' .awaitPay .payloadLen with plen := 2, pos := 8 } [] .eos))).map
      (fun t => (t.st, t.err, t.pos)) = some (.failed, some (.dataLengthError .endOfStream), 8) := by decide

/-- S7, step 12: with no record owed no byte is needed. -/
theorem test_peekPay_empty :
    (after (exec .peekPay (reader (at' .awaitPay .payloadLen) [] .eos))).map (fun t => (t.st, t.fld, t.ri)) =
      some (.payDec, .commandId, 0) := by decide

/-- S7, step 5; D-H10: the byte missing. -/
theorem test_hdrVersion :
    (after (exec .hdrVersion (reader { at' .hdrDec .version with cnt := 1, pos := 1 } [1, 0, 0, 0, 0x0A, 0, 0] .eos))).map
      (fun t => (t.ver, t.fld, t.cnt, t.pos)) = some (1, .deviceId, 0, 2) ∧
    (after (exec .hdrVersion (reader { at' .hdrDec .version with cnt := 1, pos := 1 } [] .eos))).map
      (fun t => (t.err, t.pos)) = some (some (.malformedHeader .version), 1) := by decide

/-- D-H6: the third and the fourth byte of DeviceID. -/
theorem test_hdrDeviceId :
    (after (exec .hdrDeviceId (reader { at' .hdrDec .deviceId with cnt := 2, acc := 0x5678 } [0x9A, 0xBC] .opened))).map
      (fun t => (t.acc, t.cnt)) = some (0x56789A, 3) ∧
    (after (exec .hdrDeviceId (reader { at' .hdrDec .deviceId with cnt := 3, acc := 0x56789A } [0xBC] .opened))).map
      (fun t => (t.dev, t.acc, t.cnt, t.fld)) = some (0x56789ABC, 0, 0, .payloadLen) := by decide

/-- D-H14: a bare I/O error. -/
theorem test_hdrDeviceId_io :
    (after (exec .hdrDeviceId (reader { at' .hdrDec .deviceId with cnt := 1, pos := 3 } [] (.ioErr 9)))).map
      (fun t => (t.st, t.err, t.pos)) = some (.failed, some (.ioError 9), 3) := by decide

/-- P1, step 18. -/
theorem test_hdrPayloadLen :
    (after (exec .hdrPayloadLen (reader { at' .hdrDec .payloadLen with cnt := 1, pos := 7 } [2, 7] .opened))).map
      (fun t => (t.plen, t.st, t.fld, t.pos, t.buf)) = some (2, .awaitPay, .payloadLen, 8, [7]) := by decide

/-- P1, step 21; P2, step 32. -/
theorem test_recCommandId :
    (after (exec .recCommandId (reader { owed .commandId with pos := 8 } [7, 0] .opened))).map
      (fun t => (t.cid, t.fld, t.pos)) = some (7, .length, 9) ∧
    (after (exec .recCommandId (reader { at' .payDec .commandId with plen := 2, ri := 1 } [] .eos))).map
      (fun t => t.err) = some (some (.malformedRecord 1 .commandId)) := by decide

/-- P1, step 23. -/
theorem test_recLength :
    (after (exec .recLength (reader { owed .length with cnt := 1, dat := [0x77], pos := 10 } [2] .opened))).map
      (fun t => (t.rlen, t.fld, t.cnt, t.dat, t.pos)) = some (2, .data, 0, [], 11) := by decide

/-- P1, step 25; P4, step 23. -/
theorem test_recData :
    (after (exec .recData (reader { owed .data with rlen := 2, cnt := 1, dat := [0xAA], pos := 12 } [0xBB] .opened))).map
      (fun t => (t.dat, t.cnt, t.pos)) = some ([0xAA, 0xBB], 2, 13) ∧
    (after (exec .recData (reader { owed .data with rlen := 4, cnt := 2, dat := [0xDE, 0xAD] } [] (.ioErr 0x2A)))).map
      (fun t => (t.st, t.err, t.dat)) = some (.failed, some (.ioError 0x2A), [0xDE, 0xAD]) := by decide

/-- D-R1: the commit. -/
theorem test_recCommit :
    (after (exec .recCommit { owed .data with cid := 7, rlen := 2, dat := [0xAA, 0xBB], cnt := 2 })).map
      (fun t => (t.recs, t.ri, t.fld, t.cnt, t.dat)) =
      some ([⟨7, 2, [0xAA, 0xBB]⟩], 1, .commandId, 0, []) := by decide

/-- D-R2: a record of length 0 is committed without a byte, on a closed stream too. -/
theorem test_recCommit_empty :
    (after (exec .recCommit (reader { owed .data with cid := 255 } [] .eos))).map (fun t => (t.recs, t.st)) =
      some ([⟨255, 0, []⟩], .payDec) := by decide

/-- P1, step 31. -/
theorem test_assemble :
    (after (exec .assemble { doneF1 with st := .payDec })).map (fun t => (t.st, t.result)) =
      some (.done, some (.ok frameF1)) := by decide

/-! ## Single steps: HOST -/

/-- P3, step 31: the reader is untouched; and a START while busy is dropped (R221). -/
theorem test_start :
    (after (exec (.start 1) (reader doneF1 [0x00, 0x02] .opened))).map
      (fun t => (t.st, t.plen, t.recs, t.buf, t.pos)) =
      some (.awaitHdr, 0, [], [0x00, 0x02], 16) ∧
    (after (exec (.start 1) (at' .payDec .data))).map (fun t => (t.st, t.fld)) = some (.payDec, .data) := by decide

/-- P5, step 5: START clears the error and leaves the terminator. -/
theorem test_start_failed :
    (after (exec (.start 1)
      (reader { at' .failed .version with err := some (.headerFormatError .endOfStream) } [] .eos))).map
      (fun t => (t.st, t.err, t.term)) = some (.awaitHdr, none, .eos) := by decide

/-- R223: the pointers take bits 15:0. -/
theorem test_pointers :
    (after (exec (.wrregRecSel 0x00050001) doneF1)).map (fun t => (t.recSel, t.recOff)) = some (1, 0) ∧
    (after (exec (.wrregRecOff 0xFFFFFFFF) doneF1)).map (fun t => (t.recSel, t.recOff)) = some (0, 0xFFFF) := by decide

/-- P1's end state and P4's: STATUS. -/
theorem test_status :
    received (exec .rdregStatus doneF1) = some 0x55 ∧
    received (exec .rdregStatus (reader (at' .failed .data) [] (.ioErr 0x2A))) = some 0xA6 := by decide

/-- P2 and P4: ERR. -/
theorem test_err :
    received (exec .rdregErr { at' .failed .commandId with err := some (.malformedRecord 1 .commandId) }) =
      some 0x00010064 ∧
    received (exec .rdregErr { at' .failed .data with err := some (.ioError 0x2A) }) = some 0x00002A05 := by decide

/-- P1's read-out of the header. -/
theorem test_header_registers :
    received (exec .rdregHdrVersion doneF1) = some 1 ∧ received (exec .rdregHdrDeviceId doneF1) = some 10 ∧
    received (exec .rdregHdrPayloadLen doneF1) = some 2 ∧ received (exec .rdregRecCount doneF1) = some 2 := by decide

/-- P2: none of it outside DONE. -/
theorem test_header_registers_failed :
    received (exec .rdregHdrVersion { doneF1 with st := .failed }) = some 0 ∧
    received (exec .rdregRecCount { doneF1 with st := .failed }) = some 0 ∧
    received (exec .rdregRecCmd { doneF1 with st := .failed }) = some 0 := by decide

/-- P1's read-out of record 0. -/
theorem test_record_registers :
    received (exec .rdregRecCmd doneF1) = some 7 ∧ received (exec .rdregRecLen doneF1) = some 2 ∧
    received (exec .rdregRecData doneF1) = some 0xAA ∧
    received (exec .rdregRecData { doneF1 with recOff := 1 }) = some 0xBB := by decide

/-- P1's read-out of record 1, and what lies past the ends (R42, R43, R45). -/
theorem test_record_registers_ends :
    received (exec .rdregRecCmd { doneF1 with recSel := 1 }) = some 9 ∧
    received (exec .rdregRecLen { doneF1 with recSel := 1 }) = some 0 ∧
    received (exec .rdregRecData { doneF1 with recOff := 2 }) = some 0 ∧
    received (exec .rdregRecCmd { doneF1 with recSel := 2 }) = some 0 := by decide

/-- R41, R44, R34, R33. -/
theorem test_other_registers :
    received (exec .rdregRecSel { doneF1 with recSel := 0xFFFF }) = some 0xFFFF ∧
    received (exec .rdregRecOff { State.reset with recOff := 3 }) = some 3 ∧
    received (exec .rdregCtrl doneF1) = some 0 ∧ received (exec (.rdregReserved 12) doneF1) = some 0 := by decide

/-- P5, step 7. -/
theorem test_reset :
    (after (exec .reset (reader (at' .failed .data) [1] .eos))).map (fun t => (t.st, t.term, t.buf, t.statusImage)) =
      some (.idle, .opened, [], 0) := by decide

/-- R283: before the first reset only RESET has a step. -/
theorem test_before_reset :
    (after (exec (.srcData 0) { State.reset with rstSeen := false })).isNone = true ∧
    (after (exec .reset { State.reset with rstSeen := false })).map (fun t => t.rstSeen) = some true := by decide

/-! ## Single steps: wire items -/

/-- D-H6, the bytes partly buffered and partly in SOURCE's hands. -/
theorem test_header :
    (after (exec (.header 0x1234 0x56789ABC 0)
      (agents (reader (at' .hdrDec .version) [0x12, 0x34, 0x56] .opened) []
        (dataBeats [0x78, 0x9A, 0xBC, 0x00, 0x00, 0x07]) []))).map
      (fun t => (t.ver, t.dev, t.st, t.pos, t.env.source)) =
      some (0x1234, 0x56789ABC, .awaitPay, 8, [⟨0, 0x07⟩]) := by decide

/-- D-R1. -/
theorem test_record :
    (after (exec (.record 7 2 [0xAA, 0xBB]) (reader (owed .commandId) [0x07, 0x00, 0x02, 0xAA, 0xBB, 0x09] .eos))).map
      (fun t => (t.recs, t.ri, t.fld, t.buf, t.pos)) =
      some ([⟨7, 2, [0xAA, 0xBB]⟩], 1, .commandId, [0x09], 5) := by decide

/-- The fields one by one (R151 to R153, R171 to R173). -/
theorem test_fields :
    (after (exec (.headerVersion 256) (reader (at' .hdrDec .version) [1, 0, 9] .opened))).map
      (fun t => (t.ver, t.fld, t.buf)) = some (256, .deviceId, [9]) ∧
    (after (exec (.headerDeviceId 10) (reader (at' .hdrDec .deviceId) [0, 0, 0, 0x0A] .opened))).map
      (fun t => (t.dev, t.fld, t.pos)) = some (10, .payloadLen, 4) ∧
    (after (exec (.headerPayloadLen 2) (reader (at' .hdrDec .payloadLen) [0, 2] .opened))).map
      (fun t => (t.plen, t.st, t.pos)) = some (2, .awaitPay, 2) := by decide

/-- The record's fields one by one. -/
theorem test_record_fields :
    (after (exec (.recordCommandId 7) (reader (owed .commandId) [7] .opened))).map (fun t => (t.cid, t.fld)) =
      some (7, .length) ∧
    (after (exec (.recordLength 2) (reader (owed .length) [0, 2] .opened))).map (fun t => (t.rlen, t.fld)) =
      some (2, .data) ∧
    (after (exec (.recordData [0xAA, 0xBB]) (reader { owed .data with rlen := 2 } [0xAA, 0xBB] .opened))).map
      (fun t => (t.dat, t.cnt, t.pos)) = some ([0xAA, 0xBB], 2, 2) := by decide

/-- Bytes that are not at the cursor are not taken. -/
theorem test_record_elsewhere :
    (after (exec (.record 7 1 [0xAA]) (reader (owed .commandId) [0x07, 0x00, 0x01, 0xBB] .eos))).map
      (fun t => (t.recs, t.pos)) = some ([], 0) := by decide

/-! ## Single steps: the parameters (R6, R49) -/

/-- D4, D3: without a bound a ninth byte is taken; of a four-bit cause code the low four bits count. -/
theorem test_params_reader :
    (after (execWith wide (.srcData 9) (reader State.reset [1, 2, 3, 4, 5, 6, 7, 8] .opened))).map
      (fun t => t.buf.length) = some 9 ∧
    (after (execWith wide (.srcErr 0x2A) State.reset)).map (fun t => t.term) = some (.ioErr 0x0A) := by decide

/-- D5: on a payload of two records cut after one byte, `min(p, 1)` goes on and `p` reports DataLengthError. -/
theorem test_params_paywin :
    (after (exec .peekPay (reader { at' .awaitPay .payloadLen with plen := 2 } [7] .eos))).map (fun t => t.st) =
      some .payDec ∧
    (after (execWith wide .peekPay (reader { at' .awaitPay .payloadLen with plen := 2 } [7] .eos))).map (fun t => t.err) =
      some (some (.dataLengthError .endOfStream)) := by decide

/-- U8: a record that a bounded store cannot hold is refused, by its number or by its size. -/
theorem test_params_store :
    (after (execWith tiny .recCommit { owed .data with rlen := 1, cnt := 1, dat := [5] })).map (fun t => t.recs) =
      some [⟨0, 1, [5]⟩] ∧
    (after (execWith tiny .recCommit { owed .data with rlen := 2, cnt := 2, dat := [5, 6] })).isNone = true ∧
    (after (execWith tiny (.record 7 0 [])
      (reader { owed .commandId with recs := [⟨0, 0, []⟩] } [7, 0, 0] .eos))).isNone = true := by decide

/-! ## Witnesses: states and operands that meet the hypotheses of the obligations, clause by clause -/

/-- A next state, from its computation. -/
theorem next_of_after {o : Out} {t : State} (h : after o = some t) : o = .next t := by
  cases o <;> simp [after] at h
  rw [h]

/-- Eight bytes of a header (S7). -/
def headerS7 : List Byte := [0x00, 0x01, 0x00, 0x00, 0x00, 0x0A, 0x00, 0x00]

/-- The second record of two, one of its two data bytes taken, the other buffered. -/
def midRecord : State :=
  { at' .payDec .data with
    buf := [0x22, 0x33], pos := 16, ver := 1, dev := 10, plen := 2, ri := 1, cid := 9, rlen := 2, cnt := 1, dat := [0x11]
    recs := [⟨7, 2, [0xAA, 0xBB]⟩] }

/-- `midRecord` one step on. -/
def midRecordNext : State := { midRecord with buf := [0x33], pos := 17, cnt := 2, dat := [0x11, 0x22] }

/-- HDR_DEC in the middle of DeviceID, the rest of the header buffered. -/
def midHeader : State :=
  { at' .hdrDec .deviceId with buf := [0x00, 0x0A, 0x00, 0x02], pos := 4, ver := 1, cnt := 2, acc := 0 }

/-- FAILED behind an end of stream. -/
def failedEos : State := reader { at' .failed .version with err := some (.headerFormatError .endOfStream) } [] .eos

theorem wide_legal : wide.Legal where
  bufcapHeader := by intro c h; cases h
  bufcapPaywin := by intro c p h; cases h
  paywinZero := rfl
  paywinLe := by intro p; simp [wide]; omega
  paywinTwo := by decide
  iocodePos := by decide
  storeHolds := by intro r d h; cases h; decide

theorem witness_DecodeOfEncode :
    WellFormed (.rdregReserved 15) = true ∧ WellFormed (.record 255 0 []) = true ∧
    WellFormed (.record 7 2 [0xAA, 0xBB]) = true ∧ WellFormed (.recordData []) = true ∧
    encode (.record 7 2 [0xAA, 0xBB]) = .wire .record [0x07, 0x00, 0x02, 0xAA, 0xBB] := by decide

theorem witness_WireDecodeKeepsEveryByte :
    decode (.wire .record [0x07, 0x00, 0x02, 0xAA, 0xBB, 0x09]) = .ok (.record 7 2 [0xAA, 0xBB]) [0x09] ∧
    decode (.wire (.recordData 0) [0x09]) = .ok (.recordData []) [0x09] := by decide

theorem witness_EveryBitPatternDecodes :
    headerS7.length = 8 ∧ ([] : List Byte).length = (0 : Byte).toNat * 256 + (0 : Byte).toNat ∧
    (List.replicate 65535 (0 : Byte)).length = (0xFF : Byte).toNat * 256 + (0xFF : Byte).toNat ∧
    decode (.wire .header [0, 0, 0, 0, 0, 0, 0]) = .reject .truncated ∧
    decode (.wire .headerVersion [0]) = .reject .truncated ∧ decode (.wire .headerPayloadLen [0]) = .reject .truncated ∧
    decode (.wire .recordLength [0]) = .reject .truncated ∧
    decode (.wire .headerDeviceId [0, 0, 0]) = .reject .truncated ∧
    decode (.wire .recordCommandId []) = .reject .truncated ∧
    decode (.wire (.recordData 2) [0]) = .reject .truncated ∧
    decode (.wire .record [7, 0]) = .reject .truncated ∧ decode (.wire .record [7, 0, 1]) = .reject .truncated := by
  simp only [List.length_replicate]; decide

theorem witness_StepTableSelects :
    decode (.step 0x25 0 1 1 2) = .ok .recData [] ∧ (0x2F : BitVec 6) >>> 3 = 5 ∧ (0x30 : BitVec 6) >>> 3 = 6 ∧
    (0x07 : BitVec 6) >>> 3 = 0 := by decide

theorem witness_StepRunsDecoded_parser :
    (agents (at' .payDec .commandId) [.parser] [] []).env.turns = .parser :: [] ∧
    decode (.step (at' .payDec .commandId).cw 0 0 0 0) = .ok .assemble [] := by decide

theorem witness_StepRunsDecoded_source :
    (agents State.reset [.source] [⟨1, 0xFF⟩] []).env.source = ⟨1, 0xFF⟩ :: [] ∧
    decode (.beat 1 0xFF) = .ok .srcEos [] := by decide

theorem witness_StepRunsDecoded_host :
    (agents State.reset [.host] [] [.access false 15 0]).env.host = .access false 15 0 :: [] ∧
    decode (.host false 15 0) = .ok (.rdregReserved 15) [] ∧
    (agents State.reset [.host] [] [.rst]).env.host = .rst :: [] := by decide

theorem witness_StepRunsDecoded_item :
    (agents (reader (at' .hdrDec .version) headerS7 .opened) [.item] [] []).itemKind = some .header ∧
    decode (.wire .header headerS7) = .ok (.header 1 10 0) [] ∧
    (agents (reader (owed .commandId) [0xFF, 0x00, 0x00] .eos) [.item] [] []).itemKind = some .record ∧
    decode (.wire .record [0xFF, 0x00, 0x00]) = .ok (.record 255 0 []) [] := by decide

theorem witness_StepRunsDecoded_field :
    (agents (reader { owed .data with rlen := 1 } [0xAA] .opened) [.field] [] []).fieldKind = some (.recordData 1) ∧
    (reader { owed .data with rlen := 1 } [0xAA] .opened).pending = [0xAA] ∧
    decode (.wire (.recordData 1) [0xAA]) = .ok (.recordData [0xAA]) [] := by decide

theorem witness_TurnWithoutOperationChangesNothing :
    decode (.step State.reset.cw 0 0 0 0) = .reject .noParserStep ∧
    (agents State.reset [.parser] [] []).env.turns = .parser :: [] ∧
    (agents State.reset [.source] [] []).env.source = [] ∧ (agents State.reset [.host] [] []).env.host = [] ∧
    decode (hostWord (.access true 15 1)) = .reject .unlistedWrite := by decide

theorem witness_TurnWithoutOperationChangesNothing_wire :
    (agents State.reset [.item] [] []).env.turns = .item :: [] ∧ State.reset.itemKind = none ∧
    (at' .hdrDec .version).itemKind = some .header ∧
    decode (.wire .header (at' .hdrDec .version).pending) = .reject .truncated ∧
    (agents State.reset [.field] [] []).env.turns = .field :: [] ∧ State.reset.fieldKind = none ∧
    (reader (owed .length) [7] .opened).fieldKind = some .recordLength ∧
    decode (.wire .recordLength (reader (owed .length) [7] .opened).pending) = .reject .truncated := by decide

theorem witness_DefaultOrderOfTurns :
    (at' .payDec .commandId).parserReady Config.hardware = true ∧
    (agents State.reset [] [⟨0, 7⟩] []).parserReady Config.hardware = false ∧
    (agents State.reset [] [⟨0, 7⟩] []).sourceReady Config.hardware = true ∧
    (agents State.reset [] [⟨0, 7⟩] []).inReady Config.hardware 0 = true ∧
    (agents State.reset [] [] [.rst]).parserReady Config.hardware = false ∧
    (agents State.reset [] [] [.rst]).sourceReady Config.hardware = false := by decide

/-- A beat that is not accepted, in SOURCE's hands: a full buffer, a closed stream, the reserved kind. -/
theorem witness_DefaultOrderOfTurns_held :
    (agents (reader State.reset headerS7 .opened) [] [⟨0, 7⟩] [.rst]).sourceReady Config.hardware = false ∧
    (agents (reader State.reset [] .eos) [] [⟨0, 7⟩] [.rst]).sourceReady Config.hardware = false ∧
    (agents State.reset [] [⟨3, 7⟩] [.rst]).sourceReady Config.hardware = false ∧
    (agents State.reset [] [⟨3, 7⟩] [.rst]).parserReady Config.hardware = false ∧
    (agents State.reset [] [⟨3, 7⟩] [.rst]).env.host = .rst :: [] ∧
    (agents (reader State.reset headerS7 .opened) [] [⟨0, 7⟩] []).sourceReady wide = true := by decide

theorem witness_EnabledParserStepChangesState :
    midRecord.rstSeen = true ∧ midRecord.parserReady Config.hardware = true ∧
    decode (.step midRecord.cw midRecord.ri midRecord.plen midRecord.cnt midRecord.rlen) = .ok .recData [] ∧
    after (exec .recData midRecord) = some midRecordNext ∧ midRecordNext ≠ midRecord ∧
    (at' .awaitHdr .version).parserReady Config.hardware = false ∧
    midRecordNext.parserReady tiny = true ∧ after (execWith tiny .recCommit midRecordNext) = none := by decide

theorem witness_ResetLeavesEveryResetValue :
    State.rstSeen { State.reset with rstSeen := false } = false ∧ Instr.srcEos ≠ .reset ∧ (2 : BitVec 2) ≠ 3 := by decide

theorem witness_ReaderOutcomesTestBytesFirst :
    (8 ≤ (reader State.reset headerS7 .eos).buf.length ∧ 0 ≤ State.reset.buf.length) ∧
    ((reader State.reset [1, 2, 3, 4, 5, 6, 7] .eos).buf.length < 8 ∧ (reader State.reset [] .eos).buf.length < 1) ∧
    (reader State.reset [] .eos).term = .eos ∧ (reader State.reset [] (.ioErr 5)).term = .ioErr 5 ∧
    State.reset.term = .opened ∧ (reader State.reset [7] .eos).buf = 7 :: [] ∧ State.reset.buf = [] := by decide

theorem witness_SrcDataAppends :
    State.reset.rstSeen = true ∧ State.reset.term = .opened ∧
    (reader State.reset [1, 2, 3, 4, 5, 6, 7] .opened).buf.length < 8 ∧ (reader State.reset [] .eos).term ≠ .opened ∧
    8 ≤ (reader State.reset headerS7 .opened).buf.length ∧ wide.bufcap = none ∧ Config.hardware.bufcap = some 8 := by decide

theorem witness_TerminatorBeatsClose :
    State.reset.rstSeen = true ∧ State.reset.term = .opened ∧ (reader State.reset [1] (.ioErr 0)).term ≠ .opened ∧
    (0x0F : IoCode).toNat < 2 ^ wide.iocodeW ∧ (0xFF : IoCode).toNat < 2 ^ Config.hardware.iocodeW := by decide

theorem witness_AcceptanceOfBeats :
    (reader State.reset headerS7 .opened).inReady Config.hardware 1 = true ∧
    (reader State.reset headerS7 .opened).inReady Config.hardware 0 = false ∧
    (reader State.reset headerS7 .opened).inReady wide 0 = true ∧ State.reset.inReady wide 3 = false ∧ State.reset.rstSeen = true ∧ decode (.beat 0 7) = .ok (.srcData 7) [] := by decide

theorem witness_PeekedBytesStay :
    instrFormat (.srcData 9) = .beat ∧ (reader State.reset [7] .opened).peekOutcome 1 = .ok ∧
    after (exec (.srcData 9) (reader State.reset [7] .opened)) = some (reader State.reset [7, 9] .opened) := by decide

theorem witness_PeekHdrOutcomes :
    (at' .awaitHdr .version).rstSeen = true ∧ (at' .awaitHdr .version).st = .awaitHdr ∧
    8 ≤ (reader (at' .awaitHdr .version) headerS7 .eos).buf.length ∧
    (reader (at' .awaitHdr .version) [1, 2, 3, 4, 5, 6, 7] .eos).buf.length < 8 ∧
    (reader (at' .awaitHdr .version) [] .eos).term = .eos ∧
    (reader (at' .awaitHdr .version) [] (.ioErr 9)).term = .ioErr 9 ∧ (at' .awaitHdr .version).term = .opened := by decide

theorem witness_PeekPayOutcomes :
    (at' .awaitPay .payloadLen).rstSeen = true ∧ (at' .awaitPay .payloadLen).st = .awaitPay ∧
    (at' .awaitPay .payloadLen).plen = 0 ∧ (reader { at' .awaitPay .payloadLen with plen := 1 } [7] .eos).buf ≠ [] ∧
    State.plen { at' .awaitPay .payloadLen with plen := 1 } ≠ 0 ∧ (at' .awaitPay .payloadLen).buf = [] ∧
    (reader (at' .awaitPay .payloadLen) [] .eos).term = .eos ∧
    (reader (at' .awaitPay .payloadLen) [] (.ioErr 9)).term = .ioErr 9 ∧ (at' .awaitPay .payloadLen).term = .opened ∧
    (reader { at' .awaitPay .payloadLen with plen := 2 } [7] .eos).buf.length < wide.paywin 2 ∧
    wide.paywin 1 ≤ (reader { at' .awaitPay .payloadLen with plen := 1 } [7] .eos).buf.length := by
  decide

theorem witness_HdrVersionStep :
    (at' .hdrDec .version).rstSeen = true ∧ (at' .hdrDec .version).st = .hdrDec ∧ (at' .hdrDec .version).fld = .version ∧
    (reader (at' .hdrDec .version) [1] .eos).buf = 1 :: [] ∧ (at' .hdrDec .version).cnt.toNat + 1 < 2 ∧
    2 ≤ (State.cnt { at' .hdrDec .version with cnt := 1 }).toNat + 1 ∧ (at' .hdrDec .version).buf = [] ∧
    (reader (at' .hdrDec .version) [] .eos).term = .eos ∧
    (reader (at' .hdrDec .version) [] (.ioErr 9)).term = .ioErr 9 ∧ (at' .hdrDec .version).term = .opened := by decide

theorem witness_HdrDeviceIdStep :
    (at' .hdrDec .deviceId).rstSeen = true ∧ (at' .hdrDec .deviceId).st = .hdrDec ∧
    (at' .hdrDec .deviceId).fld = .deviceId ∧ (reader (at' .hdrDec .deviceId) [1] .eos).buf = 1 :: [] ∧
    (State.cnt { at' .hdrDec .deviceId with cnt := 2 }).toNat + 1 < 4 ∧
    4 ≤ (State.cnt { at' .hdrDec .deviceId with cnt := 3 }).toNat + 1 ∧ (at' .hdrDec .deviceId).buf = [] ∧
    (reader (at' .hdrDec .deviceId) [] .eos).term = .eos ∧
    (reader (at' .hdrDec .deviceId) [] (.ioErr 9)).term = .ioErr 9 ∧ (at' .hdrDec .deviceId).term = .opened := by decide

theorem witness_HdrPayloadLenStep :
    (at' .hdrDec .payloadLen).rstSeen = true ∧ (at' .hdrDec .payloadLen).st = .hdrDec ∧
    (at' .hdrDec .payloadLen).fld = .payloadLen ∧ (reader (at' .hdrDec .payloadLen) [1] .eos).buf = 1 :: [] ∧
    (at' .hdrDec .payloadLen).cnt.toNat + 1 < 2 ∧
    2 ≤ (State.cnt { at' .hdrDec .payloadLen with cnt := 1 }).toNat + 1 ∧ (at' .hdrDec .payloadLen).buf = [] ∧
    (reader (at' .hdrDec .payloadLen) [] .eos).term = .eos ∧
    (reader (at' .hdrDec .payloadLen) [] (.ioErr 9)).term = .ioErr 9 ∧ (at' .hdrDec .payloadLen).term = .opened := by
  decide

theorem witness_RecCommandIdStep :
    (owed .commandId).rstSeen = true ∧ (owed .commandId).st = .payDec ∧ (owed .commandId).fld = .commandId ∧
    (owed .commandId).ri.toNat < (owed .commandId).plen.toNat ∧
    (State.ri { owed .commandId with plen := 65535, ri := 65534 }).toNat < (65535 : U16).toNat ∧
    (reader (owed .commandId) [1] .eos).buf = 1 :: [] ∧ (owed .commandId).buf = [] ∧
    (reader (owed .commandId) [] .eos).term = .eos ∧
    (reader (owed .commandId) [] (.ioErr 9)).term = .ioErr 9 ∧ (owed .commandId).term = .opened := by decide

theorem witness_RecLengthStep :
    (owed .length).rstSeen = true ∧ (owed .length).st = .payDec ∧ (owed .length).fld = .length ∧
    (reader (owed .length) [1] .eos).buf = 1 :: [] ∧ (owed .length).cnt.toNat + 1 < 2 ∧
    2 ≤ (State.cnt { owed .length with cnt := 1 }).toNat + 1 ∧ (owed .length).buf = [] ∧
    (reader (owed .length) [] .eos).term = .eos ∧
    (reader (owed .length) [] (.ioErr 9)).term = .ioErr 9 ∧ (owed .length).term = .opened := by decide

theorem witness_RecDataStep :
    midRecord.rstSeen = true ∧ midRecord.st = .payDec ∧ midRecord.fld = .data ∧
    midRecord.cnt.toNat < midRecord.rlen.toNat ∧ (65534 : U16).toNat < (65535 : U16).toNat ∧
    midRecord.buf = 0x22 :: [0x33] ∧ (reader midRecord [] .eos).buf = [] ∧ (reader midRecord [] .eos).term = .eos ∧
    (reader midRecord [] (.ioErr 9)).term = .ioErr 9 ∧ (reader midRecord [] .opened).term = .opened := by decide

theorem witness_RecCommitStores :
    (owed .data).rstSeen = true ∧ (owed .data).st = .payDec ∧ (owed .data).fld = .data ∧ (owed .data).cnt = (owed .data).rlen ∧
    midRecordNext.st = .payDec ∧ midRecordNext.fld = .data ∧ midRecordNext.cnt = midRecordNext.rlen ∧
    midRecordNext.recs.length < 65535 := by decide

theorem witness_RecCommitStores_params : Config.hardware.Legal ∧ wide.Legal := ⟨hardware_legal, wide_legal⟩

theorem witness_AssemblePublishes :
    (at' .payDec .commandId).rstSeen = true ∧ (at' .payDec .commandId).st = .payDec ∧
    (at' .payDec .commandId).fld = .commandId ∧ (at' .payDec .commandId).ri = (at' .payDec .commandId).plen ∧
    State.ri { doneF1 with st := .payDec } = doneF1.plen := by decide

theorem witness_ParserStepsOutsideTheirGuard :
    State.reset.rstSeen = true ∧ State.reset.st ≠ .awaitHdr ∧ State.reset.st ≠ .awaitPay ∧ State.reset.st ≠ .hdrDec ∧
    (at' .hdrDec .payloadLen).fld ≠ .version ∧ (at' .hdrDec .version).fld ≠ .deviceId ∧
    (at' .hdrDec .version).fld ≠ .payloadLen ∧ (at' .payDec .commandId).plen.toNat ≤ (at' .payDec .commandId).ri.toNat ∧
    (owed .commandId).fld ≠ .length ∧ (owed .data).rlen.toNat ≤ (owed .data).cnt.toNat ∧
    midRecord.cnt ≠ midRecord.rlen ∧ (owed .commandId).ri ≠ (owed .commandId).plen := by decide

theorem witness_HeaderItemsAreDecoded_header :
    (at' .hdrDec .version).rstSeen = true ∧ (at' .hdrDec .version).st = .hdrDec ∧ (at' .hdrDec .version).cnt = 0 ∧
    (reader (at' .hdrDec .version) headerS7 .eos).pending =
      [0x00, 0x01, 0x00, 0x00, 0x00, 0x0A, 0x00, 0x00] ++ [] ∧
    (agents (at' .hdrDec .version) [] (dataBeats (headerS7 ++ [9])) []).pending =
      [0x00, 0x01, 0x00, 0x00, 0x00, 0x0A, 0x00, 0x00] ++ [9] := by decide

theorem witness_HeaderItemsAreDecoded_fields :
    (reader (at' .hdrDec .version) [1, 0] .opened).pending = [1, 0] ++ [] ∧ (at' .hdrDec .version).fld = .version ∧
    (reader (at' .hdrDec .deviceId) [0, 0, 0, 0x0A] .opened).pending = [0, 0, 0, 0x0A] ++ [] ∧
    (at' .hdrDec .deviceId).fld = .deviceId ∧
    (reader (at' .hdrDec .payloadLen) [0, 2, 7] .opened).pending = [0, 2] ++ [7] ∧
    (at' .hdrDec .payloadLen).fld = .payloadLen := by decide

theorem witness_RecordItemsAreDecoded_record :
    (owed .commandId).rstSeen = true ∧ (owed .commandId).st = .payDec ∧ (owed .commandId).fld = .commandId ∧
    (owed .commandId).ri.toNat < (owed .commandId).plen.toNat ∧
    ([0xAA, 0xBB] : List Byte).length = (0 : Byte).toNat * 256 + (2 : Byte).toNat ∧
    (reader (owed .commandId) [7, 0, 2, 0xAA, 0xBB, 9] .eos).pending = [7, 0, 2] ++ [0xAA, 0xBB] ++ [9] ∧
    (reader (owed .commandId) [255, 0, 0] .eos).pending = [255, 0, 0] ++ [] ++ [] ∧
    tiny.store = .bounded 1 1 ∧ 1 < ([0xAA, 0xBB] : List Byte).length ∧ wide.store = .bounded 65535 65535 ∧
    (owed .commandId).recs.length < 65535 ∧ ([0xAA, 0xBB] : List Byte).length ≤ 65535 := by decide

theorem witness_RecordItemsAreDecoded_fields :
    (reader (owed .commandId) [7, 9] .eos).pending = [7] ++ [9] ∧
    (reader (owed .length) [0, 2] .eos).pending = [0, 2] ++ [] ∧ (owed .length).fld = .length ∧ (owed .length).cnt = 0 ∧
    (owed .data).fld = .data ∧ (owed .data).cnt = 0 ∧ ([] : List Byte).length = (owed .data).rlen.toNat ∧
    (reader (owed .data) [9] .eos).pending = [] ++ [9] ∧
    ([0xAA] : List Byte).length = (State.rlen { owed .data with rlen := 1 }).toNat ∧
    (reader { owed .data with rlen := 1 } [0xAA] .eos).pending = [0xAA] ++ [] := by decide

theorem witness_HeaderIsItsByteSteps :
    (agents (reader (at' .hdrDec .version) [0x12] .opened) [] (dataBeats [0x34, 0x56, 0x78, 0x9A, 0xBC, 0, 0]) []).pending
      = wireBytes (.header 0x1234 0x56789ABC 0) ∧
    (wireBytes (.header 0x1234 0x56789ABC 0)).isPrefixOf
      (reader (at' .hdrDec .version) [0x12, 0x34, 0x56, 0x78, 0x9A, 0xBC, 0, 0] .eos).pending = true ∧
    (at' .hdrDec .version).rstSeen = true ∧ (at' .hdrDec .version).st = .hdrDec ∧ (at' .hdrDec .version).fld = .version ∧
    (at' .hdrDec .version).cnt = 0 ∧ (at' .hdrDec .version).env.turns = [] := by decide

theorem witness_RecordIsItsByteSteps :
    (wireBytes (.record 7 2 [0xAA, 0xBB])).isPrefixOf
      (agents (reader (owed .commandId) [7, 0] .opened) [] (dataBeats [2, 0xAA, 0xBB]) []).pending = true ∧
    (wireBytes (.record 255 0 [])).isPrefixOf (reader (owed .commandId) [255, 0, 0] .eos).pending = true ∧
    (owed .commandId).rstSeen = true ∧ (owed .commandId).st = .payDec ∧ (owed .commandId).fld = .commandId ∧
    (owed .commandId).ri.toNat < (owed .commandId).plen.toNat ∧ (owed .commandId).env.turns = [] ∧
    ([0xAA, 0xBB] : List Byte).length = (2 : U16).toNat ∧ ([] : List Byte).length = (0 : U16).toNat := by decide

theorem witness_StartBeginsADecode :
    State.reset.rstSeen = true ∧ (1 : U32).getLsbD 0 = true ∧ (0xFFFFFFFF : U32).getLsbD 0 = true ∧
    State.reset.st = .idle ∧ doneF1.st = .done ∧ failedEos.st = .failed ∧ (at' .awaitHdr .version).st = .awaitHdr ∧
    midHeader.st = .hdrDec ∧ (at' .awaitPay .payloadLen).st = .awaitPay ∧ midRecord.st = .payDec := by decide

theorem witness_WriteRegisterByNumber :
    State.reset.rstSeen = true ∧ (0xFFFFFFFE : U32).getLsbD 0 = false ∧ (0x80000001 : U32).getLsbD 0 = true ∧
    (15 : BitVec 4) ≠ 0 ∧ (15 : BitVec 4) ≠ 7 ∧ (15 : BitVec 4) ≠ 10 ∧
    (agents State.reset [.host] [] [.access true 15 1]).env.turns = .host :: [] ∧
    (agents State.reset [.host] [] [.access true 15 1]).env.host = .access true 15 1 :: [] := by decide

theorem witness_ReadOfCtrlAndReserved :
    State.reset.rstSeen = true ∧ 12 ≤ (12 : BitVec 4).toNat ∧ 12 ≤ (15 : BitVec 4).toNat := by decide

theorem witness_ReadOfStatus :
    doneF1.rstSeen = true ∧ doneF1.term = .eos ∧ State.reset.term = .opened ∧
    (reader State.reset [] (.ioErr 0xFF)).term = .ioErr 0xFF := by decide

theorem witness_ReadOfErr :
    failedEos.rstSeen = true ∧ failedEos.st = .failed ∧ failedEos.err = some (.headerFormatError .endOfStream) ∧
    doneF1.st ≠ .failed ∧
    State.err { failedEos with err := some (.headerFormatError (.ioError 0xFF)) } =
      some (.headerFormatError (.ioError 0xFF)) ∧
    State.err { failedEos with err := some (.dataLengthError .endOfStream) } = some (.dataLengthError .endOfStream) ∧
    State.err { failedEos with err := some (.dataLengthError (.ioError 0)) } = some (.dataLengthError (.ioError 0)) ∧
    State.err { failedEos with err := some (.malformedHeader .payloadLen) } = some (.malformedHeader .payloadLen) ∧
    State.err { failedEos with err := some (.malformedRecord 65534 .data) } = some (.malformedRecord 65534 .data) ∧
    State.err { failedEos with err := some (.ioError 0x2A) } = some (.ioError 0x2A) := by decide

theorem witness_ReadOfHeaderRegisters :
    doneF1.rstSeen = true ∧ doneF1.recs.length < 65536 ∧ 3 ≤ (3 : BitVec 4).toNat ∧ (6 : BitVec 4).toNat ≤ 6 := by decide

theorem witness_ReadOfPointers :
    doneF1.rstSeen = true ∧
    exec .rdregRecData doneF1 = .next { doneF1 with env := { doneF1.env with rdata := 0xAA } } :=
  ⟨by decide, next_of_after (by decide)⟩

theorem witness_ReadOfSelectedRecord :
    doneF1.rstSeen = true ∧ doneF1.st = .done ∧ doneF1.recs[doneF1.recSel.toNat]? = some ⟨7, 2, [0xAA, 0xBB]⟩ ∧
    doneF1.recOff.toNat < (2 : U16).toNat ∧ ([0xAA, 0xBB] : List Byte)[doneF1.recOff.toNat]? = some 0xAA ∧
    (2 : U16).toNat ≤ (State.recOff { doneF1 with recOff := 2 }).toNat ∧
    doneF1.recs.length ≤ (State.recSel { doneF1 with recSel := 2 }).toNat ∧ failedEos.st ≠ .done := by decide

theorem witness_RegistersShowOnlyTheResult :
    doneF1.rstSeen = true ∧ doneF1.st = .done ∧ State.reset.st ≠ .done ∧ State.reset.st ≠ .failed ∧
    failedEos.st = .failed ∧ failedEos.err = some (.headerFormatError .endOfStream) ∧
    doneF1.result = State.result { doneF1 with pos := 99, cid := 0, buf := [1] } := by decide

theorem witness_SourceOperationsFrame :
    instrFormat (.srcData 9) = .beat ∧
    exec (.srcData 9) (reader State.reset [7] .opened) = .next (reader State.reset [7, 9] .opened) :=
  ⟨by decide, next_of_after (by decide)⟩

theorem witness_ParserOperationsFrame :
    isParserInstr .recData = true ∧ exec .recData midRecord = .next midRecordNext :=
  ⟨by decide, next_of_after (by decide)⟩

theorem witness_HostAccessFrame :
    instrFormat (.wrregRecSel 1) = .host ∧ beginsAnew (.wrregRecSel 1) = false ∧
    exec (.wrregRecSel 1) doneF1 = .next { doneF1 with recSel := 1 } ∧
    (∀ w, Instr.wrregRecSel 1 ≠ .wrregRecOff w) ∧ (∀ w, Instr.wrregRecOff 1 ≠ .wrregRecSel w) :=
  ⟨by decide, by decide, next_of_after (by decide), by simp, by simp⟩

theorem witness_FrameStoreFrame :
    beginsAnew .recCommit = false ∧
    exec .recCommit midRecordNext = .next (midRecordNext.commit ⟨9, 2, [0x11, 0x22]⟩) ∧ 0 < midRecordNext.recs.length ∧
    beginsAnew .recData = false ∧ Instr.recData ≠ .recCommit ∧ (∀ c l d, Instr.recData ≠ .record c l d) ∧
    exec .recData midRecord = .next midRecordNext :=
  ⟨by decide, next_of_after (by decide), by decide, by decide, by decide, by simp, next_of_after (by decide)⟩

theorem witness_FrameStoreFrame_bounded :
    tiny.store = .bounded 1 1 ∧ wide.store = .bounded 65535 65535 ∧ midRecordNext.rstSeen = true ∧
    midRecordNext.st = .payDec ∧ midRecordNext.fld = .data ∧ midRecordNext.cnt = midRecordNext.rlen ∧
    1 ≤ midRecordNext.recs.length ∧ 1 < midRecordNext.rlen.toNat ∧
    midRecordNext.recs.length < 65535 ∧ midRecordNext.rlen.toNat ≤ 65535 := by decide

theorem midRecord_inv : midRecord.Inv Config.hardware := by constructor <;> decide

theorem midRecord_inv_wide : midRecord.Inv wide := by constructor <;> decide

theorem midHeader_inv : midHeader.Inv Config.hardware := by constructor <;> decide

theorem witness_StepKeepsInvariant :
    midRecord.Inv Config.hardware ∧ step midRecord = .next midRecordNext ∧
    midRecord.Inv wide ∧ stepWith wide midRecord = .next midRecordNext :=
  ⟨midRecord_inv, next_of_after (by decide), midRecord_inv_wide, next_of_after (by decide)⟩

theorem witness_StepKeepsFailedClosed :
    (failedEos.st = .failed → failedEos.term ≠ .opened) ∧ step failedEos = .next failedEos ∧ failedEos.st = .failed :=
  ⟨by decide, next_of_after (by decide), by decide⟩

theorem witness_TerminatorIsSticky :
    Instr.srcErr 7 ≠ .reset ∧ failedEos.term ≠ .opened ∧ exec (.srcErr 7) failedEos = .next failedEos :=
  ⟨by decide, by decide, next_of_after (by decide)⟩

theorem witness_TransitionsOfTheTable :
    exec .assemble { doneF1 with st := .payDec } = .next doneF1 ∧ doneF1.st ≠ State.st { doneF1 with st := .payDec } :=
  ⟨next_of_after (by decide), by decide⟩

/-- The second byte of PayloadLen, by the byte step and by the two items that hold it. -/
theorem witness_TransitionsOfTheTable_payloadLen :
    (after (exec .hdrPayloadLen (reader { at' .hdrDec .payloadLen with cnt := 1 } [2] .opened))).map (fun t => t.st) =
      some .awaitPay ∧
    (after (exec (.headerPayloadLen 2) (reader (at' .hdrDec .payloadLen) [0, 2] .opened))).map (fun t => t.st) =
      some .awaitPay ∧
    (after (exec (.header 1 10 0) (reader (at' .hdrDec .version) headerS7 .opened))).map (fun t => t.st) =
      some .awaitPay := by decide

theorem witness_FailureEntryIsPrecise :
    exec .peekHdr (reader (at' .awaitHdr .version) [] .eos) = .next failedEos ∧
    (reader (at' .awaitHdr .version) [] .eos).st ≠ .failed ∧ failedEos.st = .failed :=
  ⟨next_of_after (by decide), by decide, by decide⟩

theorem witness_ResultStandsUntilRestart :
    beginsAnew (.srcData 9) = false ∧ doneF1.st = .done ∧ failedEos.st = .failed ∧
    exec (.srcData 9) (reader doneF1 [] .opened) = .next (reader doneF1 [9] .opened) ∧
    exec .peekHdr failedEos = .next failedEos :=
  ⟨by decide, by decide, by decide, next_of_after (by decide), next_of_after (by decide)⟩

theorem witness_NoPartialFrameIsReadable : midRecord.st ≠ .done ∧ midRecord.st ≠ .failed := by decide

theorem witness_HeaderStepsAlwaysFindAByte : midHeader.Inv Config.hardware ∧ midHeader.rstSeen = true ∧ midHeader.st = .hdrDec :=
  ⟨midHeader_inv, by decide, by decide⟩

theorem witness_ParserIgnoresPointers :
    isParserInstr .recData = true ∧ exec .recData midRecord = .next midRecordNext :=
  ⟨by decide, next_of_after (by decide)⟩

theorem witness_StartForgetsTheLastDecode :
    (1 : U32).getLsbD 0 = true ∧ doneF1.busy = false ∧ State.busy { State.reset with term := .eos, pos := 16 } = false ∧
    doneF1.rstSeen = State.reset.rstSeen ∧ doneF1.buf = State.reset.buf ∧ doneF1.term = .eos ∧ doneF1.pos = 16 ∧
    doneF1.env = State.reset.env := by decide

/-- With an empty schedule `midRecord` runs REC.DATA, under these parameters and under others. -/
theorem midRecord_fetch : midRecord.fetch Config.hardware = some .recData ∧ midRecord.fetch wide = some .recData := by decide

theorem witness_ForecastDoesNotDependOnSchedule :
    midRecord.Inv Config.hardware ∧ (∀ i, midRecord.fetch Config.hardware = some i → beginsAnew i = false) ∧
    step midRecord = .next midRecordNext ∧
    midRecord.Inv wide ∧ (∀ i, midRecord.fetch wide = some i → beginsAnew i = false) ∧
    stepWith wide midRecord = .next midRecordNext := by
  refine ⟨midRecord_inv, fun i h => ?_, next_of_after (by decide), midRecord_inv_wide, fun i h => ?_,
    next_of_after (by decide)⟩
  · rw [midRecord_fetch.1] at h; cases h; rfl
  · rw [midRecord_fetch.2] at h; cases h; rfl

/-- Parameters that differ in `BUFCAP` and `STORE` alone. -/
theorem witness_ForecastDoesNotDependOnSchedule_params :
    tiny.paywin = Config.hardware.paywin ∧ tiny.iocodeW = Config.hardware.iocodeW ∧ tiny.store ≠ Config.hardware.store :=
  ⟨rfl, rfl, by decide⟩

theorem witness_DecodeFrameOfEnc :
    frameF1.wf = true ∧ Frame.wf ⟨⟨0, 0, 0⟩, []⟩ = true ∧ Config.hardware.Legal ∧ wide.Legal :=
  ⟨by decide, by decide, hardware_legal, wide_legal⟩

theorem witness_DecodedFrameIsItsBytes :
    decodeFrame Config.hardware .eos (encFrame frameF1 ++ [0x99]) = some (.ok frameF1, 16) ∧
    decodeFrame Config.hardware .opened headerS7 = some (.ok ⟨⟨1, 10, 0⟩, []⟩, 8) := by decide

theorem witness_BytesConsumedByAFailedDecode :
    decodeFrame Config.hardware .eos [1, 2, 3, 4, 5, 6, 7] = some (.err (.headerFormatError .endOfStream), 0) ∧
    decodeFrame Config.hardware (.ioErr 9) [0, 1, 0, 0, 0, 0x0A, 0, 2] = some (.err (.dataLengthError (.ioError 9)), 8) ∧
    decodeFrame Config.hardware .eos [0, 1, 0, 0, 0, 0x0A, 0, 2, 7, 0, 2, 0xAA, 0xBB] =
      some (.err (.malformedRecord 1 .commandId), 13) ∧
    decodeFrame wide .eos [0, 1, 0, 0, 0, 0x0A, 0, 2, 7] = some (.err (.dataLengthError .endOfStream), 8) ∧
    decodeFrame Config.hardware (.ioErr 0x2A) [0, 3, 0, 0, 1, 0, 0, 1, 0x10, 0, 4, 0xDE, 0xAD] = some (.err (.ioError 0x2A), 13) := by
  decide

theorem witness_DecodeRunsToItsFrame_params : Config.hardware.Legal ∧ wide.Legal := ⟨hardware_legal, wide_legal⟩

theorem witness_DecodeRunsToItsFrame :
    frameF1.wf = true ∧ (at' .awaitHdr .version).rstSeen = true ∧ (at' .awaitHdr .version).st = .awaitHdr ∧
    (at' .awaitHdr .version).recs = [] ∧ (at' .awaitHdr .version).term = .opened ∧ (at' .awaitHdr .version).buf = [] ∧
    (agents (at' .awaitHdr .version) [] ((encFrame frameF1).map (fun b => ⟨0, b⟩) ++ [⟨1, 0⟩]) []).env.turns = [] ∧
    (agents (at' .awaitHdr .version) [] ((encFrame frameF1).map (fun b => ⟨0, b⟩) ++ [⟨1, 0⟩]) []).env.source =
      (encFrame frameF1).map (fun b => ⟨0, b⟩) ++ [⟨1, 0⟩] := by decide

end Sys2Proof.Tests
end

/-! # Scope: turns, guards and enabled steps (00_scope)

PROOFS of the statements about turns (log 1, 2, 3, 5, 15), about PARSER's operations outside their guard (log 8), and about
when PARSER's step counts as enabled (log 15, log 26). -/

section

namespace Sys2Proof.Machine

open Sys2Proof

/-! ## Turns -/

/-- The turn at the head of the schedule is the one taken (log 1). -/
theorem State.turn_of_cons {s : State} {t : Turn} {ts : List Turn} (h : s.env.turns = t :: ts) (P : Params) :
    s.turn P = t := by
  simp [State.turn, h]

section Step

variable {P : Params} {ex : Instr → State → Out} {s s' : State} {t : Turn} {ts : List Turn} {w : OpWord}

/-- The agent's word decodes to an operation: the step is that operation after the turn is spent. -/
theorem turnStep_of_ok {i : Instr} {rest : List Byte} (ht : s.env.turns = t :: ts) (hw : s.wordFor t = some w)
    (hd : decode w = .ok i rest) (hs : s.spend P t = s') : turnStep P ex s = ex i s' := by
  simp [turnStep, State.fetch, State.turn_of_cons ht, hw, hd, decodedInstr, hs]

/-- The agent's word selects no operation: only the turn is spent (log 6). -/
theorem turnStep_of_reject {r : Reject} (ht : s.env.turns = t :: ts) (hw : s.wordFor t = some w)
    (hd : decode w = .reject r) (hs : s.spend P t = s') : turnStep P ex s = .next s' := by
  simp [turnStep, State.fetch, State.turn_of_cons ht, hw, hd, decodedInstr, hs]

/-- The agent presents no word: only the turn is spent (log 6). -/
theorem turnStep_of_noWord (ht : s.env.turns = t :: ts) (hw : s.wordFor t = none) (hs : s.spend P t = s') :
    turnStep P ex s = .next s' := by
  simp [turnStep, State.fetch, State.turn_of_cons ht, hw, hs]

end Step

section Spend

variable {P : Params} {s : State} {t : Turn} {ts : List Turn}

/-- A turn of PARSER, of an item or of a field uses up nothing but itself. -/
theorem State.popTurn_of_cons (ht : s.env.turns = t :: ts) :
    s.popTurn = { s with env := { s.env with turns := ts } } := by
  simp [State.popTurn, ht]

/-- SOURCE's first beat leaves its hands when it is accepted, and is held otherwise (R133, R292). -/
theorem State.spend_source_of_cons {b : Beat} {bs : List Beat} (ht : s.env.turns = t :: ts)
    (hs : s.env.source = b :: bs) :
    s.spend P .source = { s with env := { s.env with
      turns := ts, source := if s.inReady P b.kind = true then bs else b :: bs } } := by
  by_cases hb : s.inReady P b.kind = true <;>
    simp [State.spend, State.sourceReady, State.popSource, State.popTurn, ht, hs, hb]

theorem State.spend_source_of_nil (ht : s.env.turns = t :: ts) (hs : s.env.source = []) :
    s.spend P .source = { s with env := { s.env with turns := ts } } := by
  simp [State.spend, State.sourceReady, State.popTurn, ht, hs]

/-- HOST's turn uses up its first request (log 3). -/
theorem State.spend_host_of_cons {q : HostReq} {qs : List HostReq} (ht : s.env.turns = t :: ts)
    (hh : s.env.host = q :: qs) :
    s.spend P .host = { s with env := { s.env with turns := ts, host := qs } } := by
  simp [State.spend, State.popHost, State.popTurn, ht, hh]

theorem State.spend_host_of_nil (ht : s.env.turns = t :: ts) (hh : s.env.host = []) :
    s.spend P .host = { s with env := { s.env with turns := ts } } := by
  simp [State.spend, State.popHost, State.popTurn, ht, hh]

end Spend

/-- Settles O7: each agent's word decodes to the operation that `turnStep` runs, in the state its turn is spent in. -/
theorem stepRunsDecoded : Obligations.StepRunsDecoded := by
  unfold Obligations.StepRunsDecoded
  refine ⟨exec_eq_execWith, step_eq_stepWith, fun s t ts i rest ht => ⟨?parser, ?source, ?access, ?rst, ?item, ?field⟩⟩
  case parser =>
    rintro rfl hd
    exact turnStep_of_ok ht rfl hd (State.popTurn_of_cons ht)
  case source =>
    rintro b bs rfl hs hd
    exact turnStep_of_ok ht (by simp [State.wordFor, hs]) hd (State.spend_source_of_cons ht hs)
  case access =>
    rintro we num wdata qs rfl hh hd
    exact turnStep_of_ok ht (by simp [State.wordFor, hh, hostWord]) hd (State.spend_host_of_cons ht hh)
  case rst =>
    rintro qs rfl hh
    have hd : decode (.rst true) = .ok .reset [] := rfl
    exact turnStep_of_ok ht (by simp [State.wordFor, hh, hostWord]) hd (State.spend_host_of_cons ht hh)
  case item =>
    rintro k rfl hk hd
    exact turnStep_of_ok ht (by simp [State.wordFor, hk]) hd (State.popTurn_of_cons ht)
  case field =>
    rintro k rfl hk hd
    exact turnStep_of_ok ht (by simp [State.wordFor, hk]) hd (State.popTurn_of_cons ht)

/-- Settles O8: the agent presents no word, or one that selects no operation, and `turnStep` only spends its turn. -/
theorem turnWithoutOperationChangesNothing : Obligations.TurnWithoutOperationChangesNothing := by
  unfold Obligations.TurnWithoutOperationChangesNothing
  refine fun s ts => ⟨?parser, ?noBeat, ?noRequest, ?rejected, ?noItem, ?itemShort, ?noField, ?fieldShort⟩
  case parser =>
    intro r ht hd
    exact turnStep_of_reject ht rfl hd (State.popTurn_of_cons ht)
  case noBeat =>
    intro ht hs
    exact turnStep_of_noWord ht (by simp [State.wordFor, hs]) (State.spend_source_of_nil ht hs)
  case noRequest =>
    intro ht hh
    exact turnStep_of_noWord ht (by simp [State.wordFor, hh]) (State.spend_host_of_nil ht hh)
  case rejected =>
    intro q qs r ht hh hd
    exact turnStep_of_reject ht (by simp [State.wordFor, hh]) hd (State.spend_host_of_cons ht hh)
  case noItem =>
    intro ht hk
    exact turnStep_of_noWord ht (by simp [State.wordFor, hk]) (State.popTurn_of_cons ht)
  case itemShort =>
    intro k r ht hk hd
    exact turnStep_of_reject ht (by simp [State.wordFor, hk]) hd (State.popTurn_of_cons ht)
  case noField =>
    intro ht hk
    exact turnStep_of_noWord ht (by simp [State.wordFor, hk]) (State.popTurn_of_cons ht)
  case fieldShort =>
    intro k r ht hk hd
    exact turnStep_of_reject ht (by simp [State.wordFor, hk]) hd (State.popTurn_of_cons ht)

/-- With no turn given, the order is PARSER, SOURCE, HOST, and PARSER again (log 15). -/
theorem State.turn_of_nil {s : State} (h : s.env.turns = []) (P : Params) :
    s.turn P = if s.parserReady P then .parser else if s.sourceReady P then .source
      else if s.env.host.isEmpty then .parser else .host := by
  simp [State.turn, h]

/-- SOURCE is ready exactly when it holds a beat that is accepted (R133). -/
theorem State.sourceReady_iff {P : Params} {s : State} :
    s.sourceReady P = true ↔ ∃ b bs, s.env.source = b :: bs ∧ s.inReady P b.kind = true := by
  cases h : s.env.source <;> simp [State.sourceReady, h]

/-- Settles O9: the branches of the default order. -/
theorem defaultOrderOfTurns : Obligations.DefaultOrderOfTurns := by
  unfold Obligations.DefaultOrderOfTurns
  intro P s ht
  rw [State.turn_of_nil ht]
  refine ⟨State.sourceReady_iff, fun hp => ?_, fun hp hs => ?_, fun q qs hp hs hh => ?_, fun hp hs hh => ?_⟩
  · simp [hp]
  · simp [hp, hs]
  · simp [hp, hs, hh]
  · simp [hp, hs, hh]

/-! ## Guards -/

/-- After a reset and under its guard an operation runs. -/
theorem State.guarded_of {s : State} {p : Prop} [Decidable p] (hr : s.rstSeen = true) (hp : p) (k : Out) :
    s.whenReset (s.when p k) = k := by
  rw [State.whenReset_of hr, State.when_of hp]

/-- After a reset and outside its guard an operation changes nothing (log 8). -/
theorem State.guarded_not {s : State} {p : Prop} [Decidable p] (hr : s.rstSeen = true) (hp : ¬ p) (k : Out) :
    s.whenReset (s.when p k) = .next s := by
  rw [State.whenReset_of hr, State.when_not hp]

/-- Settles O27: each of the ten operations stands behind one guard, and the hypothesis denies it. -/
theorem parserStepsOutsideTheirGuard : Obligations.ParserStepsOutsideTheirGuard := by
  unfold Obligations.ParserStepsOutsideTheirGuard
  intro s hr
  refine ⟨?peekHdr, ?peekPay, ?hdrVersion, ?hdrDeviceId, ?hdrPayloadLen, ?recCommandId, ?recLength, ?recData,
    ?recCommit, ?assemble⟩
  case recCommandId => exact fun h => State.guarded_not hr (by rw [← not_lt] at h; tauto) _
  case recData => exact fun h => State.guarded_not hr (by rw [← not_lt] at h; tauto) _
  all_goals exact fun h => State.guarded_not hr (by tauto) _

/-! ## The step PARSER's control word selects -/

/-- The control word determines `st` and `fld` (R98, R99, R100). -/
theorem State.cw_eq_iff {s : State} {st : St} {fld : Fld} :
    s.cw = st.code ++ fieldCode fld ↔ s.st = st ∧ s.fld = fld := by
  constructor
  · intro h
    unfold State.cw at h
    generalize s.st = a, s.fld = b at h ⊢
    revert h
    cases a <;> cases st <;> cases b <;> cases fld <;> decide
  · rintro ⟨rfl, rfl⟩; rfl

/-- A row of R100 whose mask is full matches one `st` and one `fld`. -/
theorem State.of_cw_fullMask {s : State} (st : St) (fld : Fld)
    (h : s.cw &&& 0x3F#6 = st.code ++ fieldCode fld) : s.st = st ∧ s.fld = fld :=
  State.cw_eq_iff.1 ((BitVec.and_allOnes (x := s.cw)).symm.trans h)

/-- A row of R100 whose mask leaves the field out matches one `st`. -/
theorem State.of_cw_stMask {s : State} (st : St) (h : s.cw &&& 0x38#6 = st.code ++ 0#3) : s.st = st := by
  unfold State.cw at h
  generalize s.st = a, s.fld = b at h ⊢
  revert h
  cases a <;> cases st <;> cases b <;> decide

/-- PARSER's operations with the guard of their row of R100, the six that read a field in one case. -/
inductive ParserStep (s : State) : Instr → Prop
  | peekHdr : s.st = .awaitHdr → ParserStep s .peekHdr
  | peekPay : s.st = .awaitPay → ParserStep s .peekPay
  | assemble : s.st = .payDec ∧ s.fld = .commandId ∧ s.ri = s.plen → ParserStep s .assemble
  | recCommit : s.st = .payDec ∧ s.fld = .data ∧ s.cnt = s.rlen → ParserStep s .recCommit
  | read (i) : readsField s i → ParserStep s i

/-- A row of R100 that selects finds the guard of its operation met. -/
theorem parserStep_of_selects {s : State} {r : StepRow} (hmem : r ∈ stepRows)
    (hsel : r.selects s.cw s.ri s.plen s.cnt s.rlen = true) : ParserStep s r.instr := by
  simp only [StepRow.selects, StepRow.matchesWord, Bool.and_eq_true, beq_iff_eq] at hsel
  obtain ⟨hcw, hguard⟩ := hsel
  simp only [stepRows, List.mem_cons, List.not_mem_nil, or_false] at hmem
  obtain rfl | rfl | rfl | rfl | rfl | rfl | rfl | rfl | rfl | rfl := hmem
  · exact .peekHdr (State.of_cw_stMask .awaitHdr hcw)
  · obtain ⟨hst, hfld⟩ := State.of_cw_fullMask .hdrDec .version hcw
    exact .read _ (.inl ⟨hst, .inl ⟨rfl, hfld⟩⟩)
  · obtain ⟨hst, hfld⟩ := State.of_cw_fullMask .hdrDec .deviceId hcw
    exact .read _ (.inl ⟨hst, .inr (.inl ⟨rfl, hfld⟩)⟩)
  · obtain ⟨hst, hfld⟩ := State.of_cw_fullMask .hdrDec .payloadLen hcw
    exact .read _ (.inl ⟨hst, .inr (.inr ⟨rfl, hfld⟩)⟩)
  · exact .peekPay (State.of_cw_stMask .awaitPay hcw)
  · obtain ⟨hst, hfld⟩ := State.of_cw_fullMask .payDec .commandId hcw
    exact .assemble ⟨hst, hfld, eq_of_beq hguard⟩
  · obtain ⟨hst, hfld⟩ := State.of_cw_fullMask .payDec .commandId hcw
    exact .read _ (.inr ⟨hst, .inl ⟨rfl, hfld, of_decide_eq_true hguard⟩⟩)
  · obtain ⟨hst, hfld⟩ := State.of_cw_fullMask .payDec .length hcw
    exact .read _ (.inr ⟨hst, .inr (.inl ⟨rfl, hfld⟩)⟩)
  · obtain ⟨hst, hfld⟩ := State.of_cw_fullMask .payDec .data hcw
    exact .read _ (.inr ⟨hst, .inr (.inr ⟨rfl, hfld, of_decide_eq_true hguard⟩)⟩)
  · obtain ⟨hst, hfld⟩ := State.of_cw_fullMask .payDec .data hcw
    exact .recCommit ⟨hst, hfld, eq_of_beq hguard⟩

/-- An operation that PARSER's control word selects finds its guard met (R100). -/
theorem parserStep_of_decode {s : State} {i : Instr} {rest : List Byte} (h : decode s.parserWord = .ok i rest) :
    ParserStep s i := by
  simp only [State.parserWord, decode, decodeStep] at h
  split at h
  next r hr =>
    have hsel := List.find?_some hr
    cases h
    exact parserStep_of_selects (List.mem_of_find?_eq_some hr) hsel
  next => split_ifs at h

/-! ## What a selected step does -/

/-- Accumulating or handing over an integer field leaves the cursor alone: only the Take before it moves it. -/
theorem State.deliverInt_pos {fin : U32 → State → State} (hfin : ∀ v t, (fin v t).pos = t.pos) (w : Nat) (b : Byte)
    (s : State) : (State.deliverInt w fin b s).pos = s.pos := by
  obtain ⟨-, h⟩ | ⟨-, h⟩ := State.deliverInt_cases w fin b s
  · rw [h]
  · rw [h]; exact hfin _ _

/-- A step that reads a field is the consuming template (R137), and what it makes of the byte leaves the cursor behind it. -/
theorem execWith_of_readsField {s : State} {i : Instr} (P : Params) (hr : s.rstSeen = true) (hi : readsField s i) :
    ∃ e deliver, execWith P i s = s.consume e deliver ∧ ∀ b, (deliver b s.take).pos = s.take.pos := by
  obtain ⟨hst, ⟨rfl, hfld⟩ | ⟨rfl, hfld⟩ | ⟨rfl, hfld⟩⟩ | ⟨hst, ⟨rfl, hfld⟩ | ⟨rfl, hfld⟩ | ⟨rfl, hfld⟩⟩ := hi
  · exact ⟨_, _, State.guarded_of hr ⟨hst, hfld⟩ _, fun b => State.deliverInt_pos (by intros; rfl) _ b _⟩
  · exact ⟨_, _, State.guarded_of hr ⟨hst, hfld⟩ _, fun b => State.deliverInt_pos (by intros; rfl) _ b _⟩
  · exact ⟨_, _, State.guarded_of hr ⟨hst, hfld⟩ _, fun b => State.deliverInt_pos (by intros; rfl) _ b _⟩
  · exact ⟨_, _, State.guarded_of hr ⟨hst, hfld⟩ _, fun b => rfl⟩
  · exact ⟨_, _, State.guarded_of hr ⟨hst, hfld⟩ _, fun b => State.deliverInt_pos (by intros; rfl) _ b _⟩
  · exact ⟨_, _, State.guarded_of hr ⟨hst, hfld⟩ _, fun b => rfl⟩

/-- The outcome changes `s`, or is a commit that a bounded store refuses (log 26). -/
def Advances (s : State) (o : Out) : Prop := (∃ t, o = .next t ∧ t ≠ s) ∨ o = .refused .storeFull

/-- An answered next state advances when it differs. -/
theorem advances_next {s t : State} : Advances s (.next t) ↔ t ≠ s := by simp [Advances]

/-- A failure is a change, unless the decode had failed already. -/
theorem State.fail_ne {s : State} (hst : s.st ≠ .failed) (e : Err) : s.fail e ≠ s :=
  fun h => hst (congrArg State.st h).symm

/-- A consuming step changes the state unless it waits (R156, R177): it moves the cursor or fails. -/
theorem advances_consume {s : State} {e : Err} {deliver : Byte → State → State} (hst : s.st ≠ .failed)
    (hpos : ∀ b, (deliver b s.take).pos = s.take.pos) :
    Advances s (s.consume e deliver) ↔ s.readByteOutcome ≠ .wait := by
  unfold State.consume
  split <;> rename_i hb <;> rw [advances_next, hb]
  case h_1 b =>
    have hne : deliver b s.take ≠ s := fun h => by
      have := (hpos b).symm.trans (congrArg State.pos h)
      simp at this
    simp [hne]
  case h_2 => simp [State.fail_ne hst]
  case h_3 c => simp [State.fail_ne hst]
  case h_4 => simp

/-- A checkpoint changes the state unless it waits (R134, R135): it proceeds to another `st` or fails. -/
theorem advances_checkpoint {s : State} {n : Nat} {wrap : Cause → Err} {proceed : State → State} (hst : s.st ≠ .failed)
    (hp : (proceed s).st ≠ s.st) :
    Advances s (s.checkpoint n wrap proceed) ↔ s.peekOutcome n ≠ .wait := by
  unfold State.checkpoint
  split <;> rename_i hb <;> rw [advances_next, hb]
  case h_1 =>
    have hne : proceed s ≠ s := fun h => hp (congrArg State.st h)
    simp [hne]
  case h_2 => simp [State.fail_ne hst]
  case h_3 c => simp [State.fail_ne hst]
  case h_4 => simp

/-- A record offered to the store advances: stored it changes the state, otherwise it is refused. -/
theorem advances_store {P : Params} {s t : State} (r : Record) (ht : t ≠ s) : Advances s (s.store P r (.next t)) := by
  unfold State.store
  split
  · exact advances_next.2 ht
  · exact .inr rfl

/-- A field is read in HDR_DEC or PAY_DEC only. -/
theorem st_ne_failed_of_readsField {s : State} {i : Instr} (hi : readsField s i) : s.st ≠ .failed := by
  obtain ⟨hst, -⟩ | ⟨hst, -⟩ := hi <;> simp [hst]

/-- For a step that reads a field `parserReady` asks for a byte or an end (R156, R177). -/
theorem State.parserReady_of_readsField {P : Params} {s : State} {i : Instr} {rest : List Byte}
    (hd : decode s.parserWord = .ok i rest) (hi : readsField s i) :
    s.parserReady P = true ↔ s.readByteOutcome ≠ .wait := by
  obtain ⟨-, ⟨rfl, -⟩ | ⟨rfl, -⟩ | ⟨rfl, -⟩⟩ | ⟨-, ⟨rfl, -⟩ | ⟨rfl, -⟩ | ⟨rfl, -⟩⟩ := hi <;>
    simp [State.parserReady, hd]

/-- The selected step is enabled exactly when it advances. -/
theorem State.parserReady_iff_of_decode {P : Params} {s : State} {i : Instr} {rest : List Byte} (hr : s.rstSeen = true)
    (hd : decode s.parserWord = .ok i rest) : s.parserReady P = true ↔ Advances s (execWith P i s) := by
  cases parserStep_of_decode hd with
  | peekHdr hst =>
    rw [show execWith P .peekHdr s = _ from State.guarded_of hr hst _,
      advances_checkpoint (by simp [hst]) (by simp [hst])]
    simp [State.parserReady, hd]
  | peekPay hst =>
    rw [show execWith P .peekPay s = _ from State.guarded_of hr hst _,
      advances_checkpoint (by simp [hst]) (by simp [hst])]
    simp [State.parserReady, hd]
  | assemble hg =>
    obtain ⟨hst, -, -⟩ := id hg
    have hne : { s with st := .done } ≠ s := fun h => by simpa [hst] using congrArg State.st h
    rw [show execWith P .assemble s = _ from State.guarded_of hr hg _, advances_next]
    simp [State.parserReady, hd, hne]
  | recCommit hg =>
    obtain ⟨-, hfld, -⟩ := id hg
    have hne : s.commit ⟨s.cid, s.rlen, s.dat⟩ ≠ s := fun h => by simpa [hfld] using congrArg State.fld h
    rw [show execWith P .recCommit s = _ from State.guarded_of hr hg _]
    simp [State.parserReady, hd, advances_store _ hne]
  | read _ hi =>
    obtain ⟨e, deliver, hex, hpos⟩ := execWith_of_readsField P hr hi
    rw [hex, advances_consume (st_ne_failed_of_readsField hi) hpos, State.parserReady_of_readsField hd hi]

/-- PARSER is ready exactly when its control word selects a step that advances (log 15). -/
theorem State.parserReady_iff {P : Params} {s : State} (hr : s.rstSeen = true) :
    s.parserReady P = true ↔ ∃ i rest, decode s.parserWord = .ok i rest ∧ Advances s (execWith P i s) := by
  constructor
  · intro h
    cases hd : decode s.parserWord with
    | ok i rest => exact ⟨i, rest, rfl, (State.parserReady_iff_of_decode hr hd).1 h⟩
    | reject r => simp [State.parserReady, hd] at h
  · rintro ⟨i, rest, hd, h⟩
    exact (State.parserReady_iff_of_decode hr hd).2 h

/-- This hardware's selected step always answers a next state: its store refuses no record (log 26). -/
theorem exec_isNext_of_decode {s : State} {i : Instr} {rest : List Byte} (hr : s.rstSeen = true)
    (hd : decode s.parserWord = .ok i rest) : ∃ t, exec i s = .next t := by
  rw [exec_eq_execWith]
  cases parserStep_of_decode hd with
  | peekHdr hst =>
    rw [show execWith _ .peekHdr s = _ from State.guarded_of hr hst _]
    exact State.checkpoint_isNext ..
  | peekPay hst =>
    rw [show execWith _ .peekPay s = _ from State.guarded_of hr hst _]
    exact State.checkpoint_isNext ..
  | assemble hg => exact ⟨_, State.guarded_of hr hg _⟩
  | recCommit hg => exact ⟨_, State.guarded_of hr hg _⟩
  | read _ hi =>
    obtain ⟨e, deliver, hex, -⟩ := execWith_of_readsField Config.hardware hr hi
    rw [hex]
    exact State.consume_isNext ..

/-- Settles O10: the parametric statement is `State.parserReady_iff`; this hardware's store refuses nothing. -/
theorem enabledParserStepChangesState : Obligations.EnabledParserStepChangesState := by
  unfold Obligations.EnabledParserStepChangesState
  refine ⟨fun s hr => (State.parserReady_iff hr).trans ⟨?_, ?_⟩, fun P s hr => State.parserReady_iff hr⟩
  · rintro ⟨i, rest, hd, h⟩
    obtain ⟨t, ht⟩ := exec_isNext_of_decode hr hd
    rw [← exec_eq_execWith, ht, advances_next] at h
    exact ⟨i, rest, t, hd, ht, h⟩
  · rintro ⟨i, rest, t, hd, ht, hne⟩
    exact ⟨i, rest, hd, .inl ⟨t, exec_eq_execWith i s ▸ ht, hne⟩⟩

end Sys2Proof.Machine

end

/-! # State: the invariant, the registers, the terminator, the frame store (10_state)

PROOFS of the statements about the state: reset, the invariant of R47 and its step, the host registers, the terminator and
the frame store. The invariant is first read off state by state of the Frame Assembler, as an `↔`; each effect of an operation
is then a passage from one of these forms to another. -/

section

namespace Sys2Proof.Machine

open Sys2Proof

/-! ## What the invariant asks in each state -/

section InvariantByState

variable {P : Params} {s : State}

theorem State.Inv.memory_wf (h : s.Inv P) : Memory.wf P s = true := Memory.wf_iff.2 ⟨h.bufBound, h.recsWf⟩

theorem State.Inv.err_eq_none (h : s.Inv P) (hst : s.st ≠ .failed) : s.err = none :=
  not_not.1 fun he => hst (h.errIff.2 he)

/-- IDLE: the two spaces and ERR alone. -/
theorem State.inv_iff_of_idle (hst : s.st = .idle) : s.Inv P ↔ Memory.wf P s = true ∧ s.err = none := by
  constructor
  · intro h
    exact ⟨h.memory_wf, h.err_eq_none (by simp [hst])⟩
  · rintro ⟨hwf, herr⟩
    obtain ⟨hbuf, hrecs⟩ := Memory.wf_iff.1 hwf
    constructor <;> simp_all

/-- AWAIT_HDR and AWAIT_PAY: nothing of a payload is there yet (R220). -/
theorem State.inv_iff_of_await (hst : s.st = .awaitHdr ∨ s.st = .awaitPay) :
    s.Inv P ↔ Memory.wf P s = true ∧ s.err = none ∧ s.recs = [] ∧ s.dat = [] := by
  constructor
  · intro h
    exact ⟨h.memory_wf, h.err_eq_none (by obtain hst | hst := hst <;> simp [hst]), h.freshRecs (by tauto)⟩
  · rintro ⟨hwf, herr, hrecs, hdat⟩
    obtain ⟨hbuf, hrecsWf⟩ := Memory.wf_iff.1 hwf
    obtain hst | hst := hst <;> constructor <;> simp_all

/-- HDR_DEC: a header field with bytes to come, all of them buffered (R47 (d), R25, R159). -/
theorem State.inv_iff_of_hdrDec (hst : s.st = .hdrDec) :
    s.Inv P ↔ Memory.wf P s = true ∧ s.err = none ∧ (s.recs = [] ∧ s.dat = []) ∧
      (s.fld = .version ∨ s.fld = .deviceId ∨ s.fld = .payloadLen) ∧ s.cnt.toNat < s.fieldWidth s.fld ∧
      s.acc.toNat < 256 ^ s.cnt.toNat ∧ s.headerLeft ≤ s.buf.length := by
  constructor
  · intro h
    obtain ⟨hfld, hcnt⟩ := h.hdrFld hst
    exact ⟨h.memory_wf, h.err_eq_none (by simp [hst]), h.freshRecs (.inr (.inl hst)), hfld, hcnt,
      h.accBound (.inl hst), h.hdrBuffered hst⟩
  · rintro ⟨hwf, herr, ⟨hrecs, hdat⟩, hfld, hcnt, hacc, hleft⟩
    obtain ⟨hbuf, hrecsWf⟩ := Memory.wf_iff.1 hwf
    constructor <;> simp_all

/-- PAY_DEC at the start of a record or behind the last one (R47 (b), (c)). -/
theorem State.inv_iff_of_commandId (hst : s.st = .payDec) (hfld : s.fld = .commandId) :
    s.Inv P ↔ Memory.wf P s = true ∧ s.err = none ∧ s.recs.length = s.ri.toNat ∧ s.ri.toNat ≤ s.plen.toNat ∧
      s.cnt.toNat < 1 ∧ s.dat = [] := by
  constructor
  · intro h
    obtain ⟨hlen, hri⟩ := h.payRecs hst
    obtain ⟨hcnt, hdat⟩ := h.payBefore hst (by simp [hfld])
    exact ⟨h.memory_wf, h.err_eq_none (by simp [hst]), hlen, hri, by simpa [hfld, State.fieldWidth] using hcnt, hdat⟩
  · rintro ⟨hwf, herr, hlen, hri, hcnt, hdat⟩
    obtain ⟨hbuf, hrecsWf⟩ := Memory.wf_iff.1 hwf
    constructor <;> simp_all [State.fieldWidth]

/-- PAY_DEC in the Length field: a record is owed (R47 (b), (c), R25, R171). -/
theorem State.inv_iff_of_length (hst : s.st = .payDec) (hfld : s.fld = .length) :
    s.Inv P ↔ Memory.wf P s = true ∧ s.err = none ∧ s.recs.length = s.ri.toNat ∧ s.ri.toNat < s.plen.toNat ∧
      s.cnt.toNat < 2 ∧ s.dat = [] ∧ s.acc.toNat < 256 ^ s.cnt.toNat := by
  constructor
  · intro h
    obtain ⟨hlen, -⟩ := h.payRecs hst
    obtain ⟨hcnt, hdat⟩ := h.payBefore hst (by simp [hfld])
    exact ⟨h.memory_wf, h.err_eq_none (by simp [hst]), hlen, h.payOwed hst (by simp [hfld]),
      by rwa [hfld] at hcnt, hdat, h.accBound (.inr ⟨hst, hfld⟩)⟩
  · rintro ⟨hwf, herr, hlen, hri, hcnt, hdat, hacc⟩
    obtain ⟨hbuf, hrecsWf⟩ := Memory.wf_iff.1 hwf
    constructor <;> simp_all [State.fieldWidth]
    exact hri.le

/-- PAY_DEC in the Data field: `dat` counts its bytes (R47 (b), (c), R171). -/
theorem State.inv_iff_of_data (hst : s.st = .payDec) (hfld : s.fld = .data) :
    s.Inv P ↔ Memory.wf P s = true ∧ s.err = none ∧ s.recs.length = s.ri.toNat ∧ s.ri.toNat < s.plen.toNat ∧
      s.dat.length = s.cnt.toNat ∧ s.cnt.toNat ≤ s.rlen.toNat := by
  constructor
  · intro h
    obtain ⟨hlen, -⟩ := h.payRecs hst
    exact ⟨h.memory_wf, h.err_eq_none (by simp [hst]), hlen, h.payOwed hst (by simp [hfld]), h.payData hst hfld⟩
  · rintro ⟨hwf, herr, hlen, hri, hdat, hcnt⟩
    obtain ⟨hbuf, hrecsWf⟩ := Memory.wf_iff.1 hwf
    constructor <;> simp_all
    exact hri.le

/-- DONE: all records are there (R47 (e)). -/
theorem State.inv_iff_of_done (hst : s.st = .done) :
    s.Inv P ↔ Memory.wf P s = true ∧ s.err = none ∧ s.recs.length = s.plen.toNat := by
  constructor
  · intro h
    exact ⟨h.memory_wf, h.err_eq_none (by simp [hst]), h.doneCount hst⟩
  · rintro ⟨hwf, herr, hlen⟩
    obtain ⟨hbuf, hrecs⟩ := Memory.wf_iff.1 hwf
    constructor <;> simp_all

/-- FAILED: an error is recorded (R47 (f)). -/
theorem State.inv_iff_of_failed (hst : s.st = .failed) : s.Inv P ↔ Memory.wf P s = true ∧ s.err ≠ none := by
  constructor
  · intro h
    exact ⟨h.memory_wf, h.errIff.1 hst⟩
  · rintro ⟨hwf, herr⟩
    obtain ⟨hbuf, hrecs⟩ := Memory.wf_iff.1 hwf
    constructor <;> simp_all

end InvariantByState

/-! ## The updates that keep the invariant in every state -/

section Updates

variable {P : Params} {s : State}

/-- The invariant does not look at the terminator, HOST's pointers and what the agents hold. -/
theorem State.Inv.withOthers (h : s.Inv P) (u : Term) (a b : U16) (e : Env) :
    State.Inv P { s with term := u, recSel := a, recOff := b, env := e } := { h with }

/-- An accepted byte is within the capacity, and the header bytes buffered stay so (R130). -/
theorem State.Inv.push (h : s.Inv P) {b : Byte} (hroom : P.room s.buf.length = true) : (s.push b).Inv P :=
  { h with
    bufBound := (Memory.wf_iff.1 (Memory.wf_push b h.memory_wf hroom)).1
    hdrBuffered := fun hst => (h.hdrBuffered hst).trans (by simp) }

theorem State.Inv.fail (h : s.Inv P) (e : Err) : (s.fail e).Inv P :=
  Iff.mpr (State.inv_iff_of_failed rfl) ⟨Memory.wf_fail e h.memory_wf, by simp⟩

theorem State.Inv.beginDecode (h : s.Inv P) : s.beginDecode.Inv P :=
  Iff.mpr (State.inv_iff_of_await (.inl rfl)) ⟨Memory.wf_beginDecode h.memory_wf, rfl, rfl, rfl⟩

theorem State.inv_doReset (P : Params) (s : State) : s.doReset.Inv P :=
  Iff.mpr (State.inv_iff_of_idle rfl) ⟨Memory.wf_doReset P s, rfl⟩

end Updates

/-! ## One byte of a field -/

section Byte

variable {P : Params} {s : State} {b : Byte} {bs : List Byte}

/-- A state that differs in the two spaces by the byte taken alone keeps their form (R67). -/
theorem Memory.wf_of_buf_cons {t : State} (h : Memory.wf P s = true) (hb : s.buf = b :: t.buf) (hr : t.recs = s.recs) :
    Memory.wf P t = true := by
  simpa [Memory.wf, hb, hr] using Memory.wf_take h

/-- A 16-bit counter below a bound does not wrap (log 9). -/
theorem toNat_succ_of_lt {x y : U16} (h : x.toNat < y.toNat) : (x + 1).toNat = x.toNat + 1 := by
  have := y.isLt
  bv_omega

/-- An accumulator of `k` bytes holds at most `k + 1` after the next (R25, R94). -/
theorem State.accWith_lt (hcnt : s.cnt.toNat < 4) (hacc : s.acc.toNat < 256 ^ s.cnt.toNat) (b : Byte) :
    (s.accWith b).toNat < 256 ^ (s.cnt.toNat + 1) := by
  have hpow : 256 ^ s.cnt.toNat ≤ 256 ^ 3 := Nat.pow_le_pow_right (by decide) (by omega)
  have hval : (s.accWith b).toNat = s.acc.toNat * 256 + b.toNat := by
    have := b.isLt
    rw [State.accWith]; bv_omega
  have := b.isLt
  rw [hval, pow_succ]
  omega

/-- A step that accumulates reads one of the integer fields (R94). -/
theorem readsField.intField {i : Instr} (hi : readsField s i) (hc : i ≠ .recCommandId) (hd : i ≠ .recData) :
    s.st = .hdrDec ∧ (s.fld = .version ∨ s.fld = .deviceId ∨ s.fld = .payloadLen) ∨
      s.st = .payDec ∧ s.fld = .length := by
  obtain ⟨hst, h⟩ | ⟨hst, ⟨rfl, -⟩ | ⟨-, hfld⟩ | ⟨rfl, -⟩⟩ := hi
  · exact .inl ⟨hst, by tauto⟩
  · exact absurd rfl hc
  · exact .inr ⟨hst, hfld⟩
  · exact absurd rfl hd

/-- A byte that is not the last of its integer field. -/
theorem State.Inv.accumulate (h : s.Inv P)
    (hi : s.st = .hdrDec ∧ (s.fld = .version ∨ s.fld = .deviceId ∨ s.fld = .payloadLen) ∨
      s.st = .payDec ∧ s.fld = .length)
    (hb : s.buf = b :: bs) (hcnt : s.cnt.toNat + 1 < s.fieldWidth s.fld) :
    State.Inv P { s with buf := bs, pos := s.pos + 1, acc := s.accWith b, cnt := s.cnt + 1 } := by
  obtain ⟨hst, hfld⟩ | ⟨hst, hfld⟩ := hi
  · obtain ⟨hwf, herr, hfresh, -, -, hacc, hleft⟩ := (State.inv_iff_of_hdrDec hst).1 h
    have hwidth : s.fieldWidth s.fld ≤ 4 := by obtain hfld | hfld | hfld := hfld <;> simp [hfld, State.fieldWidth]
    have hlt : s.cnt.toNat < 4 := by omega
    have hsucc := toNat_succ_of_lt (y := 4) hlt
    refine Iff.mpr (State.inv_iff_of_hdrDec hst) ⟨Memory.wf_of_buf_cons hwf hb rfl, herr, hfresh, hfld, ?_, ?_, ?_⟩
    · exact hsucc.symm ▸ hcnt
    · exact hsucc.symm ▸ State.accWith_lt hlt hacc b
    · have hsub : State.headerLeft { s with buf := bs, pos := s.pos + 1, acc := s.accWith b, cnt := s.cnt + 1 } =
          s.headerLeft - 1 := by
        obtain hfld | hfld | hfld := hfld <;> simp only [State.headerLeft, hfld, hsucc, Nat.sub_add_eq]
      rw [hsub]
      exact Nat.sub_le_of_le_add (by simpa [hb] using hleft)
  · obtain ⟨hwf, herr, hlen, hri, hlt, hdat, hacc⟩ := (State.inv_iff_of_length hst hfld).1 h
    have hsucc := toNat_succ_of_lt (y := 2) hlt
    refine Iff.mpr (State.inv_iff_of_length hst hfld) ⟨Memory.wf_of_buf_cons hwf hb rfl, herr, hlen, hri, ?_, hdat, ?_⟩
    · rw [hfld] at hcnt
      exact hsucc.symm ▸ hcnt
    · exact hsucc.symm ▸ State.accWith_lt (by omega) hacc b

end Byte

/-! ## Every operation keeps the invariant -/

/-- The start of a header field: no byte of it is taken and nothing is accumulated (R150). -/
theorem State.inv_of_headerFieldStart {P : Params} {s : State} (hst : s.st = .hdrDec) (hwf : Memory.wf P s = true)
    (herr : s.err = none) (hfresh : s.recs = [] ∧ s.dat = [])
    (hfld : s.fld = .version ∨ s.fld = .deviceId ∨ s.fld = .payloadLen) (hcnt : s.cnt = 0) (hacc : s.acc = 0)
    (hleft : s.headerLeft ≤ s.buf.length) : s.Inv P := by
  refine Iff.mpr (State.inv_iff_of_hdrDec hst) ⟨hwf, herr, hfresh, hfld, ?_, by simp [hcnt, hacc], hleft⟩
  obtain hfld | hfld | hfld := hfld <;> simp [hfld, hcnt, State.fieldWidth]

/-- Taking a record keeps the invariant: one record was owed (R174). -/
theorem State.inv_commit {P : Params} {s : State} {r : Record} (hst : s.st = .payDec) (hwf : Memory.wf P s = true)
    (herr : s.err = none) (hlen : s.recs.length = s.ri.toNat) (hri : s.ri.toNat < s.plen.toNat)
    (hr : r.data.length = r.length.toNat) : (s.commit r).Inv P := by
  have hsucc := toNat_succ_of_lt hri
  have hlen' : (s.recs ++ [r]).length = (s.ri + 1).toNat := by
    rw [List.length_append, hlen, hsucc, List.length_singleton]
  exact Iff.mpr (State.inv_iff_of_commandId hst rfl)
    ⟨Memory.wf_commit hwf hr, herr, hlen', hsucc.symm ▸ hri, by simp, rfl⟩

/-- The invariant is kept by each effect an operation can have (R47). -/
theorem Effect.keeps_inv {P : Params} {s t : State} {i : Instr} (he : Effect P s i t) (h : s.Inv P) : t.Inv P := by
  cases he with
  | same => exact h
  | header v d p hg =>
    obtain ⟨hst, -, -⟩ := hg
    obtain ⟨hwf, herr, hfresh, -⟩ := (State.inv_iff_of_hdrDec hst).1 h
    exact Iff.mpr (State.inv_iff_of_await (.inr rfl)) ⟨Memory.wf_takeStream 8 hwf, herr, hfresh⟩
  | headerVersion v hg =>
    obtain ⟨hst, hfld, hcnt⟩ := hg
    obtain ⟨hwf, herr, hfresh, -, -, -, hleft⟩ := (State.inv_iff_of_hdrDec hst).1 h
    have hbuf : 8 ≤ s.buf.length := by simpa [State.headerLeft, hfld, hcnt] using hleft
    refine State.inv_of_headerFieldStart hst (Memory.wf_takeStream 2 hwf) herr hfresh (by simp) rfl rfl ?_
    change 6 ≤ (s.buf.drop 2).length
    rw [List.length_drop]
    omega
  | headerDeviceId d hg =>
    obtain ⟨hst, hfld, hcnt⟩ := hg
    obtain ⟨hwf, herr, hfresh, -, -, -, hleft⟩ := (State.inv_iff_of_hdrDec hst).1 h
    have hbuf : 6 ≤ s.buf.length := by simpa [State.headerLeft, hfld, hcnt] using hleft
    refine State.inv_of_headerFieldStart hst (Memory.wf_takeStream 4 hwf) herr hfresh (by simp) rfl rfl ?_
    change 2 ≤ (s.buf.drop 4).length
    rw [List.length_drop]
    omega
  | headerPayloadLen p hg =>
    obtain ⟨hst, -, -⟩ := hg
    obtain ⟨hwf, herr, hfresh, -⟩ := (State.inv_iff_of_hdrDec hst).1 h
    exact Iff.mpr (State.inv_iff_of_await (.inr rfl)) ⟨Memory.wf_takeStream 2 hwf, herr, hfresh⟩
  | record c l d hg =>
    obtain ⟨hst, hfld, hri, hd⟩ := hg
    obtain ⟨hwf, herr, hlen, -⟩ := (State.inv_iff_of_commandId hst hfld).1 h
    exact State.inv_commit hst (Memory.wf_takeStream _ hwf) herr hlen hri hd
  | recordCommandId c hg =>
    obtain ⟨hst, hfld, hri⟩ := hg
    obtain ⟨hwf, herr, hlen, -, -, hdat⟩ := (State.inv_iff_of_commandId hst hfld).1 h
    exact Iff.mpr (State.inv_iff_of_length hst rfl)
      ⟨Memory.wf_takeStream 1 hwf, herr, hlen, hri, by simp, hdat, by simp⟩
  | recordLength l hg =>
    obtain ⟨hst, hfld, -⟩ := hg
    obtain ⟨hwf, herr, hlen, hri, -⟩ := (State.inv_iff_of_length hst hfld).1 h
    exact Iff.mpr (State.inv_iff_of_data hst rfl) ⟨Memory.wf_takeStream 2 hwf, herr, hlen, hri, rfl, by simp⟩
  | recordData d hg =>
    obtain ⟨hst, hfld, hcnt, hd⟩ := hg
    obtain ⟨hwf, herr, hlen, hri, hdat, -⟩ := (State.inv_iff_of_data hst hfld).1 h
    exact Iff.mpr (State.inv_iff_of_data hst hfld)
      ⟨Memory.wf_takeStream d.length hwf, herr, hlen, hri, by simp [hdat, hcnt, hd], le_rfl⟩
  | peekHdr hst hbuf =>
    obtain ⟨hwf, herr, hfresh⟩ := (State.inv_iff_of_await (.inl hst)).1 h
    exact State.inv_of_headerFieldStart rfl hwf herr hfresh (.inl rfl) rfl rfl hbuf
  | peekPay hst =>
    obtain ⟨hwf, herr, hrecs, hdat⟩ := (State.inv_iff_of_await (.inr hst)).1 h
    exact Iff.mpr (State.inv_iff_of_commandId rfl rfl) ⟨hwf, herr, by simp [hrecs], by simp, by simp, hdat⟩
  | peekHdrFail | peekPayFail | readFail => exact h.fail _
  | accumulate _ b bs hi hc hd hb hcnt => exact h.accumulate (hi.intField hc hd) hb hcnt
  | hdrVersion b bs hst hfld hb hlast =>
    obtain ⟨hwf, herr, hfresh, -, hcnt, -, hleft⟩ := (State.inv_iff_of_hdrDec hst).1 h
    have hleft' : 8 - s.cnt.toNat ≤ bs.length + 1 := by simpa [State.headerLeft, hfld, hb] using hleft
    have hcnt' : s.cnt.toNat < 2 := by simpa [State.fieldWidth, hfld] using hcnt
    refine State.inv_of_headerFieldStart hst (Memory.wf_of_buf_cons hwf hb rfl) herr hfresh (by simp) rfl rfl ?_
    change 6 ≤ bs.length
    omega
  | hdrDeviceId b bs hst hfld hb hlast =>
    obtain ⟨hwf, herr, hfresh, -, hcnt, -, hleft⟩ := (State.inv_iff_of_hdrDec hst).1 h
    have hleft' : 6 - s.cnt.toNat ≤ bs.length + 1 := by simpa [State.headerLeft, hfld, hb] using hleft
    have hcnt' : s.cnt.toNat < 4 := by simpa [State.fieldWidth, hfld] using hcnt
    refine State.inv_of_headerFieldStart hst (Memory.wf_of_buf_cons hwf hb rfl) herr hfresh (by simp) rfl rfl ?_
    change 2 ≤ bs.length
    omega
  | hdrPayloadLen b bs hst hfld hb =>
    obtain ⟨hwf, herr, hfresh, -⟩ := (State.inv_iff_of_hdrDec hst).1 h
    exact Iff.mpr (State.inv_iff_of_await (.inr rfl)) ⟨Memory.wf_of_buf_cons hwf hb rfl, herr, hfresh⟩
  | recCommandId b bs hst hfld hri hb =>
    obtain ⟨hwf, herr, hlen, -, -, hdat⟩ := (State.inv_iff_of_commandId hst hfld).1 h
    exact Iff.mpr (State.inv_iff_of_length hst rfl)
      ⟨Memory.wf_of_buf_cons hwf hb rfl, herr, hlen, hri, by simp, hdat, by simp⟩
  | recLength b bs hst hfld hb =>
    obtain ⟨hwf, herr, hlen, hri, -⟩ := (State.inv_iff_of_length hst hfld).1 h
    exact Iff.mpr (State.inv_iff_of_data hst rfl) ⟨Memory.wf_of_buf_cons hwf hb rfl, herr, hlen, hri, rfl, by simp⟩
  | recData b bs hst hfld hlt hb =>
    obtain ⟨hwf, herr, hlen, hri, hdat, -⟩ := (State.inv_iff_of_data hst hfld).1 h
    have hsucc := toNat_succ_of_lt hlt
    have hdat' : (s.dat ++ [b]).length = (s.cnt + 1).toNat := by
      rw [List.length_append, hdat, hsucc, List.length_singleton]
    exact Iff.mpr (State.inv_iff_of_data hst hfld)
      ⟨Memory.wf_of_buf_cons hwf hb rfl, herr, hlen, hri, hdat', hsucc.symm ▸ hlt⟩
  | recCommit hst hfld hcnt =>
    obtain ⟨hwf, herr, hlen, hri, hdat, -⟩ := (State.inv_iff_of_data hst hfld).1 h
    exact State.inv_commit hst hwf herr hlen hri (hcnt ▸ hdat)
  | assemble hst hfld hri =>
    obtain ⟨hwf, herr, hlen, -⟩ := (State.inv_iff_of_commandId hst hfld).1 h
    exact Iff.mpr (State.inv_iff_of_done rfl) ⟨hwf, herr, hri ▸ hlen⟩
  | srcData b _ hroom => exact h.push hroom
  | srcEos | srcErr | recSel | recOff | read => exact h.withOthers _ _ _ _
  | start => exact h.beginDecode
  | reset => exact State.inv_doReset P s

/-! ## Every step keeps the invariant -/

/-- What a turn uses up is outside the block. -/
theorem State.spend_eq_withEnv (P : Params) (s : State) (t : Turn) : ∃ e, s.spend P t = { s with env := e } := by
  cases t with
  | source =>
    by_cases hr : s.sourceReady P = true
    · exact ⟨s.popTurn.popSource.env, by rw [State.spend, if_pos hr]; rfl⟩
    · exact ⟨s.popTurn.env, by rw [State.spend, if_neg hr]; rfl⟩
  | _ => exact ⟨_, rfl⟩

/-- A step is the spent turn alone, or an operation after it (log 1, log 6). -/
theorem turnStep_next {P : Params} {ex : Instr → State → Out} {s t : State} (h : turnStep P ex s = .next t) :
    t = s.spend P (s.turn P) ∨ ∃ i, s.fetch P = some i ∧ ex i (s.spend P (s.turn P)) = .next t := by
  unfold turnStep at h
  split at h
  next i hi => exact .inr ⟨i, hi, h⟩
  next => cases h; exact .inl rfl

/-- The invariant is inductive for every value of the parameters. -/
theorem stepWith_keeps_inv {P : Params} {s t : State} (h : s.Inv P) (hstep : stepWith P s = .next t) : t.Inv P := by
  have hspent : (s.spend P (s.turn P)).Inv P := by
    obtain ⟨e, he⟩ := State.spend_eq_withEnv P s (s.turn P)
    exact he ▸ h.withOthers s.term s.recSel s.recOff e
  obtain rfl | ⟨i, -, hex⟩ := turnStep_next hstep
  · exact hspent
  · exact (execWith_effect hex).keeps_inv hspent

/-- Settles O46: `stepWith_keeps_inv`, which this hardware's parameters specialise. -/
theorem stepKeepsInvariant : Obligations.StepKeepsInvariant := by
  unfold Obligations.StepKeepsInvariant
  exact ⟨fun s t h hstep => stepWith_keeps_inv h (step_eq_stepWith s ▸ hstep),
    fun P s t h hstep => stepWith_keeps_inv h hstep⟩

/-! ## Reset -/

/-- Settles O45: IDLE asks for the two spaces and ERR alone. -/
theorem invariantHoldsAtReset : Obligations.InvariantHoldsAtReset := by
  unfold Obligations.InvariantHoldsAtReset
  refine ⟨fun P => ⟨State.inv_doReset P State.reset, Memory.wf_reset P⟩, fun hst => ?_⟩
  exact absurd hst (by decide)

/-- Before the first reset every operation but RESET is stuck (R283; log 7). -/
theorem execWith_of_not_rstSeen {P : Params} {i : Instr} {s : State} (hr : s.rstSeen = false) (hi : i ≠ .reset) :
    execWith P i s = .fault .beforeReset := by
  cases i
  case reset => exact absurd rfl hi
  all_goals exact State.whenReset_not hr _

/-- Every host register reads 0 after a reset (R48). -/
theorem State.regRead_doReset (s : State) (n : BitVec 4) : s.doReset.regRead n = 0 := by
  have h : ∀ n, State.reset.regRead n = 0 := by decide
  exact h n

/-- Every beat but the reserved one is accepted after a reset (R133). -/
theorem State.inReady_doReset (s : State) {k : BitVec 2} (hk : k ≠ 3) : s.doReset.inReady Config.hardware k = true :=
  State.inReady_iff.2 ⟨rfl, hk, .inr rfl⟩

/-- Settles O11: the reset state's fields stand in its definition, and `whenReset` stops every other operation before. -/
theorem resetLeavesEveryResetValue : Obligations.ResetLeavesEveryResetValue := by
  unfold Obligations.ResetLeavesEveryResetValue
  refine ⟨fun s => ⟨s.doReset, rfl, rfl, ?fields⟩, ?stuck, ?noResult⟩
  case fields =>
    refine ⟨rfl, rfl, rfl, rfl, rfl, rfl, rfl, rfl, rfl, rfl, rfl, rfl, rfl, rfl, rfl, rfl, rfl, rfl, rfl, rfl, rfl, ?_, ?_⟩
    · exact s.regRead_doReset
    · exact fun k hk => s.inReady_doReset hk
  case stuck =>
    intro i s t hr hi
    rw [exec_eq_execWith, execWith_of_not_rstSeen hr hi]
    exact nofun
  case noResult =>
    intro s hr
    simp [State.result, hr]

/-! ## The host registers -/

section Registers

variable {s : State}

/-! The value of each register by number (R34 to R45). -/

theorem State.regRead_ctrl : s.regRead 0 = 0 := rfl
theorem State.regRead_status : s.regRead 1 = s.statusImage := rfl
theorem State.regRead_err : s.regRead 2 = s.errImage := rfl
theorem State.regRead_version : s.regRead 3 = if s.st = .done then s.ver.setWidth 32 else 0 := rfl
theorem State.regRead_deviceId : s.regRead 4 = if s.st = .done then s.dev else 0 := rfl
theorem State.regRead_payloadLen : s.regRead 5 = if s.st = .done then s.plen.setWidth 32 else 0 := rfl
theorem State.regRead_recCount :
    s.regRead 6 = if s.st = .done then (BitVec.ofNat 16 s.recs.length).setWidth 32 else 0 := rfl
theorem State.regRead_recSel : s.regRead 7 = s.recSel.setWidth 32 := rfl
theorem State.regRead_recOff : s.regRead 10 = s.recOff.setWidth 32 := rfl

/-- The reserved register numbers (R106). -/
theorem reservedNum_cases {n : BitVec 4} (hn : 12 ≤ n.toNat) : n = 12 ∨ n = 13 ∨ n = 14 ∨ n = 15 := by
  bv_omega

/-- Numbers 12 to 15 read 0 (R33). -/
theorem State.regRead_reserved {n : BitVec 4} (hn : 12 ≤ n.toNat) : s.regRead n = 0 := by
  obtain rfl | rfl | rfl | rfl := reservedNum_cases hn <;> rfl

/-- The record registers show the selected record (R42, R43, R45). -/
theorem State.regRead_of_selected {r : Record} (h : s.selected = some r) :
    s.regRead 8 = r.commandId.setWidth 32 ∧ s.regRead 9 = r.length.setWidth 32 ∧
    s.regRead 11 = if s.recOff.toNat < r.length.toNat then (r.data[s.recOff.toNat]?.getD 0).setWidth 32 else 0 := by
  simp [State.regRead, h]

/-- With no record selected the record registers read 0 (R42, R43, R45). -/
theorem State.regRead_of_not_selected (h : s.selected = none) :
    s.regRead 8 = 0 ∧ s.regRead 9 = 0 ∧ s.regRead 11 = 0 := by
  simp [State.regRead, h]

theorem State.selected_of_done {r : Record} (hst : s.st = .done) (hr : s.recs[s.recSel.toNat]? = some r) :
    s.selected = some r := by
  simp [State.selected, hst, hr]

theorem State.selected_eq_none (h : s.st ≠ .done ∨ s.recs.length ≤ s.recSel.toNat) : s.selected = none := by
  unfold State.selected
  split <;> simp_all

theorem State.errImage_eq_zero (hst : s.st ≠ .failed) : s.errImage = 0 := if_neg hst

theorem State.errImage_of_failed {e : Err} (hst : s.st = .failed) (he : s.err = some e) : s.errImage = e.image := by
  simp [State.errImage, hst, he]

/-- What a read of register `n` answers, when its value is known (R222). -/
theorem State.readReg_of {n : BitVec 4} {v : U32} (hr : s.rstSeen = true) (hv : s.regRead n = v) :
    s.readReg n = .next { s with env := { s.env with rdata := v } } := by
  rw [State.readReg, State.whenReset_of hr, hv, State.setRdata]

end Registers

/-- Settles O52: a record is selected in DONE only, and the other registers test `st` themselves. -/
theorem noPartialFrameIsReadable : Obligations.NoPartialFrameIsReadable := by
  unfold Obligations.NoPartialFrameIsReadable
  refine fun s n => ⟨fun hst hn => ?_, State.errImage_eq_zero⟩
  obtain ⟨hcmd, hlen, hdata⟩ := State.regRead_of_not_selected (State.selected_eq_none (.inl hst))
  obtain rfl | rfl | rfl | rfl | rfl | rfl | rfl := hn
  · exact State.regRead_version.trans (if_neg hst)
  · exact State.regRead_deviceId.trans (if_neg hst)
  · exact State.regRead_payloadLen.trans (if_neg hst)
  · exact State.regRead_recCount.trans (if_neg hst)
  · exact hcmd
  · exact hlen
  · exact hdata

/-- Settles O34: the registers' value is 0. -/
theorem readOfCtrlAndReserved : Obligations.ReadOfCtrlAndReserved := by
  unfold Obligations.ReadOfCtrlAndReserved
  refine fun s n w hr => ⟨rfl, State.readReg_of hr State.regRead_ctrl,
    fun hn => ⟨?_, State.readReg_of hr (State.regRead_reserved hn)⟩⟩
  obtain rfl | rfl | rfl | rfl := reservedNum_cases hn <;> rfl

/-- Settles O38: neither pointer is guarded by `st`, and a read changes `env.rdata` alone. -/
theorem readOfPointers : Obligations.ReadOfPointers := by
  unfold Obligations.ReadOfPointers
  intro s w hr
  refine ⟨State.whenReset_of hr _, State.whenReset_of hr _, rfl, State.readReg_of hr State.regRead_recSel, rfl,
    State.readReg_of hr State.regRead_recOff, ?_⟩
  intro t h
  obtain ⟨-, rfl⟩ := State.readReg_next h
  exact ⟨rfl, rfl⟩

/-- Settles O37: the count's 16 bits are the whole count while it fits. -/
theorem readOfHeaderRegisters : Obligations.ReadOfHeaderRegisters := by
  unfold Obligations.ReadOfHeaderRegisters
  intro s w hr
  refine ⟨rfl, State.readReg_of hr State.regRead_version, State.readReg_of hr State.regRead_deviceId,
    State.readReg_of hr State.regRead_payloadLen, fun hlen => ?_, fun n h3 h6 => ?_⟩
  · have hcount : (BitVec.ofNat 16 s.recs.length).setWidth 32 = BitVec.ofNat 32 s.recs.length := by bv_omega
    exact State.readReg_of hr (by rw [State.regRead_recCount, hcount])
  · have : n = 3 ∨ n = 4 ∨ n = 5 ∨ n = 6 := by bv_omega
    obtain rfl | rfl | rfl | rfl := this <;> rfl

/-- Settles O39: the selected record is the one at REC_SEL in DONE, and there is none otherwise. -/
theorem readOfSelectedRecord : Obligations.ReadOfSelectedRecord := by
  unfold Obligations.ReadOfSelectedRecord
  refine fun s w hr => ⟨rfl, fun r hst hrec => ?selected, fun h => ?none⟩
  case selected =>
    obtain ⟨hcmd, hlen, hdata⟩ := State.regRead_of_selected (State.selected_of_done hst hrec)
    refine ⟨State.readReg_of hr hcmd, State.readReg_of hr hlen, fun b hoff hb => ?_, fun hoff => ?_⟩
    · exact State.readReg_of hr (by rw [hdata, if_pos hoff, hb, Option.getD_some])
    · exact State.readReg_of hr (by rw [hdata, if_neg hoff.not_gt])
  case none =>
    obtain ⟨hcmd, hlen, hdata⟩ := State.regRead_of_not_selected (State.selected_eq_none h)
    exact ⟨State.readReg_of hr hcmd, State.readReg_of hr hlen, State.readReg_of hr hdata⟩

/-! ## STATUS and ERR -/

/-- The fields of STATUS stand at their bits, whatever their values (R35). -/
theorem statusLayout_fields (t : BitVec 2) (f d b : Bool) (c : BitVec 3) :
    let v := 0#24 ++ t ++ BitVec.ofBool f ++ BitVec.ofBool d ++ BitVec.ofBool b ++ c
    v.extractLsb' 0 3 = c ∧ v.getLsbD 3 = b ∧ v.getLsbD 4 = d ∧ v.getLsbD 5 = f ∧ v.extractLsb' 6 2 = t ∧
      v.extractLsb' 8 24 = 0 := by
  refine ⟨BitVec.extractLsb'_append_eq_right, ?busy, ?done, ?failed, ?term, ?zero⟩
  case term =>
    iterate 4 rw [BitVec.extractLsb'_append_eq_of_le (by decide)]
    exact BitVec.extractLsb'_append_eq_right
  case zero =>
    iterate 5 rw [BitVec.extractLsb'_append_eq_of_le (by decide)]
    exact BitVec.extractLsb'_eq_self
  all_goals
    simp only [BitVec.getLsbD_append]
    simp

/-- STATUS is laid out so from the flags, TERM and ST (R35). -/
theorem State.statusImage_fields (s : State) :
    s.statusImage.extractLsb' 0 3 = s.st.code ∧ s.statusImage.getLsbD 3 = s.busy ∧ s.statusImage.getLsbD 4 = s.isDone ∧
      s.statusImage.getLsbD 5 = s.isFailed ∧ s.statusImage.extractLsb' 6 2 = s.term.code ∧
      s.statusImage.extractLsb' 8 24 = 0 :=
  statusLayout_fields ..

/-- `busy` in the four states of a decode under way (R32). -/
theorem State.busy_iff {s : State} :
    s.busy = true ↔ s.st = .awaitHdr ∨ s.st = .hdrDec ∨ s.st = .awaitPay ∨ s.st = .payDec := by
  unfold State.busy
  split <;> simp [*]

/-- Settles O35: `State.statusImage_fields`, and what each flag says of `st`. -/
theorem readOfStatus : Obligations.ReadOfStatus := by
  unfold Obligations.ReadOfStatus
  intro s w hr
  obtain ⟨hst, hbusy, hdone, hfailed, hterm, hzero⟩ := s.statusImage_fields
  refine ⟨rfl, s.statusImage, State.readReg_of hr State.regRead_status, hst, hbusy ▸ State.busy_iff, hdone ▸ beq_iff_eq,
    hfailed ▸ beq_iff_eq, fun h => ?_, fun h => ?_, fun c h => ?_, hzero⟩
  all_goals rw [hterm, h]; rfl

/-- Two fields side by side, as numbers. -/
theorem toNat_append_eq_mul_add {m n : Nat} (a : BitVec m) (b : BitVec n) : (a ++ b).toNat = a.toNat * 2 ^ n + b.toNat := by
  rw [BitVec.toNat_append, ← Nat.shiftLeft_add_eq_or_of_lt b.isLt, Nat.shiftLeft_eq]

/-- ERR's image as the sum of its fields (R36). -/
theorem Err.image_toNat (e : Err) :
    e.image.toNat =
      e.kind.toNat + 8 * e.causeCode.toNat + 32 * e.fieldImage.toNat + 256 * e.ioCode.toNat + 65536 * e.index.toNat := by
  simp only [Err.image, toNat_append_eq_mul_add]
  omega

/-- Settles O36: `Err.image_toNat` at each kind of error. -/
theorem readOfErr : Obligations.ReadOfErr := by
  unfold Obligations.ReadOfErr
  refine fun s w hr => ⟨rfl, s.errImage, State.readReg_of hr State.regRead_err, State.errImage_eq_zero, fun hst => ?_⟩
  refine ⟨fun h => ?_, fun c h => ?_, fun h => ?_, fun c h => ?_, fun f h => ?_, fun i f h => ?_, fun c h => ?_⟩
  all_goals
    rw [State.errImage_of_failed hst h, Err.image_toNat]
    simp [Err.kind, Err.causeCode, Cause.code, Err.fieldImage, Err.ioCode, Cause.ioCode, Err.index]

/-! ## The terminator -/

/-- The terminator changes by RESET, or by a beat while the stream is open (R131, R132). -/
theorem Effect.term_eq_or_opened {P : Params} {s t : State} {i : Instr} (he : Effect P s i t) (hi : i ≠ .reset) :
    t.term = s.term ∨ s.term = .opened := by
  cases he with
  | srcEos h | srcErr c h => exact .inr h
  | reset => exact absurd rfl hi
  | _ => exact .inl rfl

/-- Settles O48: the beats that close the stream need it open. -/
theorem terminatorIsSticky : Obligations.TerminatorIsSticky := by
  unfold Obligations.TerminatorIsSticky
  intro i s t hi hclosed h
  exact ((exec_effect h).term_eq_or_opened hi).resolve_right hclosed

/-! ## The frame store -/

/-- The frame store changes by START, RESET and a commit alone, and a commit appends one record (R29, R174). -/
theorem Effect.recs_eq_or_append {P : Params} {s t : State} {i : Instr} (he : Effect P s i t) (hi : beginsAnew i = false) :
    t.recs = s.recs ∨ (i = .recCommit ∨ ∃ c l d, i = .record c l d) ∧ ∃ r, t.recs = s.recs ++ [r] := by
  cases he with
  | record c l d => exact .inr ⟨.inr ⟨c, l, d, rfl⟩, _, rfl⟩
  | recCommit => exact .inr ⟨.inl rfl, _, rfl⟩
  | start | reset => cases hi
  | _ => exact .inl rfl

/-- Appended records do not disturb the bytes stored before them (R71). -/
theorem State.storeByte_of_append {s t : State} {rs : List Record} (h : t.recs = s.recs ++ rs) {a : Nat} (j : Nat)
    (ha : a < s.recs.length) : t.storeByte a j = s.storeByte a j := by
  simp [State.storeByte, h, List.getElem?_append_left ha]

/-- REC.COMMIT under its guard offers the record to the store (R174). -/
theorem execWith_recCommit {P : Params} {s : State} (hr : s.rstSeen = true)
    (hg : s.st = .payDec ∧ s.fld = .data ∧ s.cnt = s.rlen) :
    execWith P .recCommit s = s.store P ⟨s.cid, s.rlen, s.dat⟩ (.next (s.commit ⟨s.cid, s.rlen, s.dat⟩)) :=
  State.guarded_of hr hg _

/-- What a bounded store holds (log 26). -/
theorem Params.fits_bounded {P : Params} {r d n : Nat} (hP : P.store = .bounded r d) (len : U16) :
    P.fits n len = true ↔ n < r ∧ len.toNat ≤ d := by
  simp [Params.fits, hP]

/-- Settles O44: `Effect.recs_eq_or_append` for the operations, `Params.fits_bounded` for a bounded store. -/
theorem frameStoreFrame : Obligations.FrameStoreFrame := by
  unfold Obligations.FrameStoreFrame
  refine ⟨fun i s t hi h => ?frame, fun P s r d hP hr hst hfld hcnt => ?bounded⟩
  case frame =>
    obtain heq | ⟨hcommit, r, hrecs⟩ := (exec_effect h).recs_eq_or_append hi
    · have happ : t.recs = s.recs ++ [] := by rw [heq, List.append_nil]
      exact ⟨fun _ _ => heq, ⟨[], happ, Nat.zero_le 1⟩, fun a j => State.storeByte_of_append happ j⟩
    · refine ⟨fun hne hnr => ?_, ⟨[r], hrecs, le_rfl⟩, fun a j => State.storeByte_of_append hrecs j⟩
      obtain rfl | ⟨c, l, d, rfl⟩ := hcommit
      · exact absurd rfl hne
      · exact absurd rfl (hnr c l d)
  case bounded =>
    rw [exec_eq_execWith, execWith_recCommit hr ⟨hst, hfld, hcnt⟩, execWith_recCommit hr ⟨hst, hfld, hcnt⟩]
    refine ⟨fun hn hd => ?_, fun h => ?_⟩
    · exact if_pos ((Params.fits_bounded hP _).2 ⟨hn, hd⟩)
    · exact if_neg fun hfit => by
        obtain ⟨hn, hd⟩ := (Params.fits_bounded hP _).1 hfit
        exact h.elim hn.not_ge hd.not_gt

end Sys2Proof.Machine

end

/-! # Memory: the reader, the stream at the cursor, the forecast (20_memory)

PROOFS of the statements about the two reader outcomes, the bytes a peek has seen, the stream behind FAILED, the frame of
PARSER's operations, and the forecast of a decode, which no schedule changes. -/

section

namespace Sys2Proof.Machine

open Sys2Proof

/-! ## The reader -/

/-- Settles O12: each clause is one of the model's laws about the two outcomes. -/
theorem readerOutcomesTestBytesFirst : Obligations.ReaderOutcomesTestBytesFirst := by
  unfold Obligations.ReaderOutcomesTestBytesFirst
  intro s n
  exact ⟨State.peekOutcome_ok.2,
    fun hn ht => State.peekOutcome_endOfStream.2 ⟨hn, ht⟩,
    fun c hn ht => State.peekOutcome_ioError.2 ⟨hn, ht⟩,
    fun hn ht => State.peekOutcome_wait.2 ⟨hn, ht⟩,
    fun b bs hb => State.readByteOutcome_byte.2 (by simp [hb]),
    fun hb ht => State.readByteOutcome_short.2 ⟨hb, ht⟩,
    fun c hb ht => State.readByteOutcome_ioFail.2 ⟨hb, ht⟩,
    fun hb ht => State.readByteOutcome_wait.2 ⟨hb, ht⟩⟩

/-- Only PARSER's steps read a field. -/
theorem readsField.format_eq {s : State} {i : Instr} (hi : readsField s i) : instrFormat i = .step := by
  obtain ⟨-, ⟨rfl, -⟩ | ⟨rfl, -⟩ | ⟨rfl, -⟩⟩ | ⟨-, ⟨rfl, -⟩ | ⟨rfl, -⟩ | ⟨rfl, -⟩⟩ := hi <;> rfl

/-- A beat appends to the buffer or sets the terminator, and leaves everything else (R130 to R133). -/
theorem Effect.eq_append_of_beat {P : Params} {s t : State} {i : Instr} (he : Effect P s i t)
    (hi : instrFormat i = .beat) : ∃ bs u, t = { s with buf := s.buf ++ bs, term := u } := by
  cases he with
  | same => exact ⟨[], s.term, by simp⟩
  | srcData b => exact ⟨[b], s.term, rfl⟩
  | srcEos => exact ⟨[], .eos, by simp [State.close]⟩
  | srcErr c => exact ⟨[], .ioErr (P.code c), by simp [State.close]⟩
  | readFail i e hr => simp [hr.format_eq] at hi
  | accumulate i b bs hr => simp [hr.format_eq] at hi
  | read i n hf => simp [hf] at hi
  | _ => cases hi

/-- Settles O16: a beat leaves the bytes of the buffer where they are and appends to them. -/
theorem peekedBytesStay : Obligations.PeekedBytesStay := by
  unfold Obligations.PeekedBytesStay
  intro s t i n hi hpeek h
  obtain ⟨bs, u, rfl⟩ := (exec_effect h).eq_append_of_beat hi
  have hn : n ≤ s.buf.length := State.peekOutcome_ok.1 hpeek
  refine ⟨State.peekOutcome_ok.2 ?_, List.take_append_of_le_length hn, rfl⟩
  change n ≤ (s.buf ++ bs).length
  rw [List.length_append]
  omega

/-! ## FAILED and the terminator -/

/-- FAILED is entered behind a closed stream only, and what reopens the stream, RESET, leaves FAILED (R191, R250). -/
theorem Effect.keeps_failedClosed {P : Params} {s t : State} {i : Instr} (he : Effect P s i t)
    (h : s.st = .failed → s.term ≠ .opened) : t.st = .failed → t.term ≠ .opened := by
  cases he with
  | peekHdrFail _ _ _ hterm | peekPayFail _ _ _ hterm | readFail _ _ _ _ hterm =>
    obtain ⟨ht, -⟩ | ⟨c, ht, -⟩ := hterm <;> simp [ht]
  | srcEos | srcErr => exact fun _ => nofun
  | header | headerPayloadLen | hdrPayloadLen | peekHdr | peekPay | assemble | start | reset => exact nofun
  | _ => exact h

/-- Settles O47: the spent turn is outside the block, and `Effect.keeps_failedClosed` says the rest. -/
theorem stepKeepsFailedClosed : Obligations.StepKeepsFailedClosed := by
  unfold Obligations.StepKeepsFailedClosed
  intro s t h hstep
  rw [step_eq_stepWith] at hstep
  obtain ⟨e, hspent⟩ := State.spend_eq_withEnv Config.hardware s (s.turn Config.hardware)
  obtain rfl | ⟨i, -, hex⟩ := turnStep_next hstep
  · rw [hspent]; exact h
  · rw [hspent] at hex
    exact (execWith_effect hex).keeps_failedClosed h

/-! ## The stream at the cursor -/

/-- From `s` to `t` the bytes `bs` are taken from the head of the stream and the cursor moves behind them (R60, R67). -/
structure Consumes (P : Params) (s : State) (bs : List Byte) (t : State) : Prop where
  pending : s.pending = bs ++ t.pending
  pos : t.pos = s.pos + bs.length
  streamEnd : t.streamEnd P = s.streamEnd P

/-- Where the reader and SOURCE are left alone, nothing is taken. -/
theorem Consumes.of_same {P : Params} {s t : State} (hbuf : t.buf = s.buf) (hterm : t.term = s.term)
    (hpos : t.pos = s.pos) (hsrc : t.env.source = s.env.source) : Consumes P s [] t where
  pending := by simp [State.pending, hbuf, hterm, hsrc]
  pos := hpos
  streamEnd := by simp [State.streamEnd, hterm, hsrc]

/-- One byte is taken from the buffer (R67). -/
theorem Consumes.of_buf_cons {P : Params} {s t : State} {b : Byte} (hbuf : s.buf = b :: t.buf) (hterm : t.term = s.term)
    (hpos : t.pos = s.pos + 1) (hsrc : t.env.source = s.env.source) : Consumes P s [b] t where
  pending := by simp [State.pending, hbuf, hterm, hsrc]
  pos := hpos
  streamEnd := by simp [State.streamEnd, hterm, hsrc]

/-- DATA beats that are taken do not move the end of the stream. -/
theorem beatsEnd_drop (P : Params) (bs : List Beat) {n : Nat} (h : n ≤ (dataPrefix bs).length) :
    beatsEnd P (bs.drop n) = beatsEnd P bs := by
  induction bs generalizing n with
  | nil => simp
  | cons b bs ih =>
    cases n with
    | zero => rfl
    | succ n =>
      by_cases hk : b.kind = 0
      · rw [dataPrefix_cons_data hk] at h
        rw [List.drop_succ_cons, ih (Nat.le_of_succ_le_succ h)]
        simp [beatsEnd, hk]
      · rw [dataPrefix_cons_other hk] at h
        simp at h

theorem State.streamEnd_takeStream {P : Params} {s : State} {n : Nat} (h : n ≤ s.pending.length) :
    (s.takeStream n).streamEnd P = s.streamEnd P := by
  by_cases ht : s.term = .opened
  · simp only [State.pending, ht, if_true, List.length_append] at h
    simp only [State.streamEnd, State.takeStream_term, State.takeStream_env, ht, if_true]
    exact beatsEnd_drop P _ (by omega)
  · simp [State.streamEnd, ht]

/-- The bytes of a wire item are taken from the stream (log 5). -/
theorem Consumes.of_item {P : Params} {s t : State} {bs : List Byte} {n : Nat} (hpre : bs.isPrefixOf s.pending = true)
    (hn : bs.length = n) (hbuf : t.buf = (s.takeStream n).buf) (hterm : t.term = (s.takeStream n).term)
    (hpos : t.pos = (s.takeStream n).pos) (henv : t.env = (s.takeStream n).env) : Consumes P s bs t := by
  obtain ⟨rest, hrest⟩ := List.isPrefixOf_iff_prefix.1 hpre
  have hle : n ≤ s.pending.length := by rw [← hrest, List.length_append]; omega
  have hpend : t.pending = (s.takeStream n).pending := by rw [State.pending, hbuf, hterm, henv, State.pending]
  have hend : t.streamEnd P = (s.takeStream n).streamEnd P := by rw [State.streamEnd, hterm, henv, State.streamEnd]
  refine ⟨?_, by rw [hpos, hn, State.takeStream_pos], hend.trans (State.streamEnd_takeStream hle)⟩
  rw [hpend, State.pending_takeStream hle, ← hrest, ← hn, List.drop_left]

/-- PARSER's steps and the wire items take bytes from the head of the stream only (R60, R67). -/
theorem Effect.consumes {P : Params} {s t : State} {i : Instr} (he : Effect P s i t) (hi : isParserInstr i = true) :
    ∃ bs, Consumes P s bs t := by
  cases he with
  | header v d p _ hpre =>
    exact ⟨_, .of_item hpre (wireBytes_header_length v d p) rfl rfl rfl rfl⟩
  | headerVersion v _ hpre =>
    exact ⟨_, .of_item hpre (wireBytes_headerVersion_length v) rfl rfl rfl rfl⟩
  | headerDeviceId d _ hpre =>
    exact ⟨_, .of_item hpre (wireBytes_headerDeviceId_length d) rfl rfl rfl rfl⟩
  | headerPayloadLen p _ hpre =>
    exact ⟨_, .of_item hpre (wireBytes_headerPayloadLen_length p) rfl rfl rfl rfl⟩
  | recordLength l _ hpre =>
    exact ⟨_, .of_item hpre (wireBytes_recordLength_length l) rfl rfl rfl rfl⟩
  | record _ _ _ _ hpre | recordCommandId _ _ hpre | recordData _ _ hpre =>
    exact ⟨_, .of_item hpre rfl rfl rfl rfl rfl⟩
  | accumulate _ _ _ _ _ _ hb | hdrVersion _ _ _ _ hb | hdrDeviceId _ _ _ _ hb | hdrPayloadLen _ _ _ _ hb
  | recCommandId _ _ _ _ _ hb | recLength _ _ _ _ hb | recData _ _ _ _ _ hb =>
    exact ⟨_, Consumes.of_buf_cons hb rfl rfl rfl⟩
  | same | peekHdr | peekHdrFail | peekPay | peekPayFail | readFail | recCommit | assemble =>
    exact ⟨[], Consumes.of_same rfl rfl rfl rfl⟩
  | read i n hf => simp [isParserInstr, hf] at hi
  | srcData | srcEos | srcErr | start | recSel | recOff | reset => cases hi

/-- PARSER's steps and the wire items leave the terminator, HOST's pointers and HOST's side of the port (R223). -/
theorem Effect.frame_of_parser {P : Params} {s t : State} {i : Instr} (he : Effect P s i t)
    (hi : isParserInstr i = true) :
    t.term = s.term ∧ t.recSel = s.recSel ∧ t.recOff = s.recOff ∧ t.rstSeen = s.rstSeen ∧
      t.env.turns = s.env.turns ∧ t.env.host = s.env.host ∧ t.env.rdata = s.env.rdata := by
  cases he with
  | read i n hf => simp [isParserInstr, hf] at hi
  | srcData | srcEos | srcErr | start | recSel | recOff | reset => cases hi
  | _ => exact ⟨rfl, rfl, rfl, rfl, rfl, rfl, rfl⟩

/-- Settles O42: `Effect.frame_of_parser`, with the bytes of `Effect.consumes`. -/
theorem parserOperationsFrame : Obligations.ParserOperationsFrame := by
  unfold Obligations.ParserOperationsFrame
  intro i s t hi h
  have he := exec_effect h
  obtain ⟨hterm, hsel, hoff, hrst, hturns, hhost, hrdata⟩ := he.frame_of_parser hi
  obtain ⟨bs, hbs⟩ := he.consumes hi
  exact ⟨hterm, hsel, hoff, hrst, hturns, hhost, hrdata, bs, hbs.pending, hbs.pos⟩

/-! ## The forecast's function forms, read from the head of the stream

What is still to be decoded splits at any bytes taken from the head: what remains after them, and so many bytes more. -/

section FunctionForms

@[simp] theorem moreConsumed_some (n : Nat) (r : Result) (m : Nat) : moreConsumed n (some (r, m)) = some (r, m + n) :=
  rfl

@[simp] theorem moreConsumed_zero (o : Option (Result × Nat)) : moreConsumed 0 o = o := by
  cases o <;> rfl

theorem moreConsumed_moreConsumed (m n : Nat) (o : Option (Result × Nat)) :
    moreConsumed m (moreConsumed n o) = moreConsumed (m + n) o := by
  cases o with
  | none => rfl
  | some p => simp [moreConsumed, Nat.add_comm, Nat.add_left_comm]

/-- A failure behind `m` bytes, seen from `n` bytes before them. -/
theorem moreConsumed_err (n m : Nat) (o : Option Err) :
    moreConsumed n (o.map fun e => (.err e, m)) = o.map fun e => (.err e, m + n) := by
  cases o <;> rfl

theorem be_append_list (s t : List Byte) : be (s ++ t) = be s * 256 ^ t.length + be t := by
  induction t using List.reverseRecOn with
  | nil => simp [be]
  | append_singleton t b ih =>
    rw [← List.append_assoc, be_append, be_append, ih, List.length_append, List.length_singleton, pow_succ]
    ring

/-- A 32-bit field in two parts (R94). -/
theorem u32_append (s t : List Byte) : u32 (s ++ t) = u32 s * BitVec.ofNat 32 (256 ^ t.length) + u32 t := by
  simp only [u32, be_append_list, BitVec.ofNat_add, BitVec.ofNat_mul]

/-- A 16-bit field read through the 32-bit accumulator (R25, R94). -/
theorem setWidth_u32 (s : List Byte) : (u32 s).setWidth 16 = u16 s := by
  apply BitVec.eq_of_toNat_eq
  simp only [u32, u16, BitVec.toNat_setWidth, BitVec.toNat_ofNat]
  omega

theorem u16Bytes_length (v : U16) : (u16Bytes v).length = 2 := beBytes_length 2 v.toNat

theorem u32Bytes_length (v : U32) : (u32Bytes v).length = 4 := beBytes_length 4 v.toNat

/-- One more byte of an integer field, in the terms of `intThen` (R94). -/
theorem State.accWith_eq (s : State) (b : Byte) :
    s.accWith b = s.acc * BitVec.ofNat 32 (256 ^ [b].length) + u32 [b] := by
  have hb : u32 [b] = b.setWidth 32 := by
    apply BitVec.eq_of_toNat_eq
    simp [u32, be]
  rw [State.accWith, hb]
  rfl

variable {t : Term} {e : Err} {a : U32} {k : Nat} {next : U32 → List Byte → Option (Result × Nat)}

/-- Bytes of an integer field that are there, accumulated. -/
theorem intThen_append (seg bs : List Byte) (hk : seg.length ≤ k) :
    intThen t e a k (seg ++ bs) next = moreConsumed seg.length
      (intThen t e (a * BitVec.ofNat 32 (256 ^ seg.length) + u32 seg) (k - seg.length) bs next) := by
  obtain ⟨m, rfl⟩ := Nat.exists_eq_add_of_le hk
  simp only [intThen, List.length_append, Nat.add_sub_cancel_left, Nat.add_lt_add_iff_left]
  split
  · rw [moreConsumed_err, Nat.add_comm]
  · next hm =>
    have hlen : (bs.take m).length = m := List.length_take_of_le (Nat.le_of_not_lt hm)
    rw [moreConsumed_moreConsumed, List.take_length_add_append, List.drop_length_add_append, u32_append, hlen, pow_add,
      BitVec.ofNat_mul]
    congr 2
    ring

/-- A field of which nothing is to come. -/
theorem intThen_zero (bs : List Byte) : intThen t e a 0 bs next = next a bs := by
  simp [intThen, u32, be]

/-- A whole integer field (R94). -/
theorem intThen_field {seg : List Byte} (bs : List Byte) (hk : seg.length = k) :
    intThen t e 0 k (seg ++ bs) next = moreConsumed k (next (u32 seg) bs) := by
  subst hk
  rw [intThen_append seg bs le_rfl, Nat.sub_self, intThen_zero]
  simp

/-- A byte of a `w`-byte integer field that is not its last (R94). -/
theorem intThen_byte (s : State) (b : Byte) (bs : List Byte) {w : Nat} (hcnt : s.cnt.toNat + 1 < w) (hw : w ≤ 4) :
    intThen t e s.acc (w - s.cnt.toNat) (b :: bs) next =
      moreConsumed 1 (intThen t e (s.accWith b) (w - (s.cnt + 1).toNat) bs next) := by
  have hsucc := toNat_succ_of_lt (x := s.cnt) (y := 4) (by simp; omega)
  rw [hsucc, ← Nat.sub_sub, State.accWith_eq]
  exact intThen_append [b] bs (by simp; omega)

/-- The last byte of a `w`-byte integer field (R94). -/
theorem intThen_lastByte (s : State) (b : Byte) (bs : List Byte) {w : Nat} (hcnt : s.cnt.toNat < w)
    (hlast : w ≤ s.cnt.toNat + 1) :
    intThen t e s.acc (w - s.cnt.toNat) (b :: bs) next = moreConsumed 1 (next (s.accWith b) bs) := by
  have hk : w - s.cnt.toNat = 1 := by omega
  rw [hk, State.accWith_eq]
  refine (intThen_append [b] bs le_rfl).trans ?_
  rw [List.length_singleton, Nat.sub_self, intThen_zero]

/-- An integer field with no byte there (R137). -/
theorem intThen_nil (hk : 0 < k) : intThen t e a k [] next = (shortfall t e).map fun e' => (.err e', 0) := by
  simp [intThen, hk]

end FunctionForms
/-! ## The record sequence, read from the head of the stream (R181) -/

section Records

variable {t : Term} {h : Header} {pre : List Record} {n : Nat} {i : U16}

theorem frameOf_fail1 (f : Fld) :
    frameOf h pre n (fail1 t i f) = (shortfall t (.malformedRecord i f)).map fun e => (.err e, n) := by
  unfold fail1
  split <;> next hs => simp [hs, frameOf]

/-- The first record of the outcome, put behind those before it. -/
theorem frameOf_consRecord (r : Record) (o : RecordsOutcome) :
    frameOf h pre n (consRecord r o) = frameOf h (pre ++ [r]) n o := by
  cases o <;> simp [consRecord, frameOf]

theorem decodeRecords_nil : decodeRecords t (n + 1) i [] = fail1 t i .commandId := by
  simp [decodeRecords]

/-- The bytes end within the Length field. -/
theorem decodeRecords_shortLength (c : Byte) {bs : List Byte} (hbs : bs.length < 2) :
    decodeRecords t (n + 1) i (c :: bs) = fail1 t i .length := by
  match bs, hbs with
  | [], _ => simp [decodeRecords]
  | [_], _ => simp [decodeRecords]

/-- The bytes end within the Data field. -/
theorem decodeRecords_shortData (c l1 l0 : Byte) {bs : List Byte} (hbs : bs.length < (u16 [l1, l0]).toNat) :
    decodeRecords t (n + 1) i (c :: l1 :: l0 :: bs) = fail1 t i .data := by
  rw [decodeRecords, if_pos hbs]

/-- A record whose bytes are there. -/
theorem decodeRecords_record (c l1 l0 : Byte) {bs : List Byte} (hbs : (u16 [l1, l0]).toNat ≤ bs.length) :
    decodeRecords t (n + 1) i (c :: l1 :: l0 :: bs) =
      consRecord ⟨c, u16 [l1, l0], bs.take (u16 [l1, l0]).toNat⟩
        (decodeRecords t n (i + 1) (bs.drop (u16 [l1, l0]).toNat)) := by
  rw [decodeRecords, if_neg (Nat.not_lt.2 hbs)]

theorem fail1_ne_ok (f : Fld) (rs : List Record) (rest : List Byte) : fail1 t i f ≠ .ok rs rest := by
  unfold fail1; split <;> simp

/-- The bytes left by the records are bytes that were there. -/
theorem decodeRecords_rest_le {bs rest : List Byte} {rs : List Record} (hok : decodeRecords t n i bs = .ok rs rest) :
    rest.length ≤ bs.length := by
  induction n generalizing i bs rs with
  | zero => cases hok; exact le_rfl
  | succ n ih =>
    match bs with
    | [] => rw [decodeRecords_nil] at hok; exact absurd hok (fail1_ne_ok _ _ _)
    | [c] | [c, _] =>
      rw [decodeRecords_shortLength c (by simp)] at hok; exact absurd hok (fail1_ne_ok _ _ _)
    | c :: l1 :: l0 :: bs =>
      by_cases hbs : bs.length < (u16 [l1, l0]).toNat
      · rw [decodeRecords_shortData c l1 l0 hbs] at hok; exact absurd hok (fail1_ne_ok _ _ _)
      · rw [decodeRecords_record c l1 l0 (Nat.le_of_not_lt hbs)] at hok
        cases ho : decodeRecords t n (i + 1) (bs.drop (u16 [l1, l0]).toNat) with
        | ok rs' rest' =>
          rw [ho] at hok
          cases hok
          have hle := ih ho
          simp only [List.length_drop, List.length_cons] at hle ⊢
          omega
        | fail e => rw [ho] at hok; cases hok
        | hang => rw [ho] at hok; cases hok

/-- The frame of the records to come, seen from `k` bytes before them. -/
theorem moreConsumed_frameOf (k m : Nat) {bs : List Byte} (hm : bs.length ≤ m) :
    moreConsumed k (frameOf h pre m (decodeRecords t n i bs)) = frameOf h pre (m + k) (decodeRecords t n i bs) := by
  cases ho : decodeRecords t n i bs with
  | ok rs rest =>
    have hle := decodeRecords_rest_le ho
    simp only [frameOf, moreConsumed_some, Option.some.injEq, Prod.mk.injEq, true_and]
    omega
  | fail e => rfl
  | hang => rfl

variable {s : State} {l : U16} {dat : List Byte} {k : Nat}

/-- Data bytes that are there, copied. -/
theorem State.fromData_append (seg bs : List Byte) (hk : seg.length ≤ k) :
    s.fromData t l dat k (seg ++ bs) =
      moreConsumed seg.length (s.fromData t l (dat ++ seg) (k - seg.length) bs) := by
  obtain ⟨m, rfl⟩ := Nat.exists_eq_add_of_le hk
  simp only [State.fromData, List.length_append, Nat.add_sub_cancel_left, Nat.add_lt_add_iff_left]
  split
  · rw [moreConsumed_err, Nat.add_comm]
  · rw [moreConsumed_moreConsumed, List.take_length_add_append, List.drop_length_add_append, List.append_assoc,
      Nat.add_sub_add_left]

/-- A Data field of which nothing is to come: the record is complete (R174). -/
theorem State.fromData_zero (hri : s.ri.toNat < s.plen.toNat) (bs : List Byte) :
    s.fromData t l dat 0 bs =
      frameOf ⟨s.ver, s.dev, s.plen⟩ (s.recs ++ [⟨s.cid, l, dat⟩]) bs.length
        (decodeRecords t (s.plen.toNat - (s.ri + 1).toNat) (s.ri + 1) bs) := by
  rw [toNat_succ_of_lt hri]
  simp [State.fromData]

/-- A Data field with no byte there (R137). -/
theorem State.fromData_nil (hk : 0 < k) :
    s.fromData t l dat k [] = (shortfall t (.malformedRecord s.ri .data)).map fun e => (.err e, 0) := by
  simp [State.fromData, hk]

/-- From the Length field on, `a` accumulated and `k` bytes of it to come. -/
def State.fromLength (s : State) (t : Term) (a : U32) (k : Nat) (bs : List Byte) : Option (Result × Nat) :=
  intThen t (.malformedRecord s.ri .length) a k bs fun l rest =>
    s.fromData t (l.setWidth 16) [] (l.setWidth 16).toNat rest

/-- A whole Length field (R172). -/
theorem State.fromLength_field {seg : List Byte} (bs : List Byte) (hseg : seg.length = 2) :
    s.fromLength t 0 2 (seg ++ bs) = moreConsumed 2 (s.fromData t (u16 seg) [] (u16 seg).toNat bs) := by
  rw [State.fromLength, intThen_field bs hseg, setWidth_u32]

/-- An owed record is its CommandID byte and what follows from the Length field on. -/
theorem State.frameOf_commandId (hri : s.ri.toNat < s.plen.toNat) (c : Byte) (bs : List Byte) :
    frameOf ⟨s.ver, s.dev, s.plen⟩ s.recs (c :: bs).length
        (decodeRecords t (s.plen.toNat - s.ri.toNat) s.ri (c :: bs)) =
      moreConsumed 1 (State.fromLength { s with cid := c } t 0 2 bs) := by
  have hn : s.plen.toNat - s.ri.toNat = s.plen.toNat - (s.ri.toNat + 1) + 1 := by omega
  rw [hn]
  match bs with
  | [] | [_] =>
    rw [decodeRecords_shortLength c (by simp), frameOf_fail1, State.fromLength, intThen, if_pos (by simp),
      moreConsumed_err, List.length_cons]
  | l1 :: l0 :: rest =>
    rw [show l1 :: l0 :: rest = [l1, l0] ++ rest from rfl, State.fromLength_field rest rfl, moreConsumed_moreConsumed]
    by_cases hrest : rest.length < (u16 [l1, l0]).toNat
    · rw [State.fromData, if_pos hrest, moreConsumed_err]
      exact (congrArg _ (decodeRecords_shortData c l1 l0 hrest)).trans (frameOf_fail1 _)
    · have hle := Nat.le_of_not_lt hrest
      rw [State.fromData, if_neg hrest, moreConsumed_moreConsumed, moreConsumed_frameOf _ _ (by simp)]
      refine (congrArg _ (decodeRecords_record c l1 l0 hle)).trans ((frameOf_consRecord _ _).trans ?_)
      congr 1
      simp only [List.length_cons, List.length_append, List.length_nil]
      omega

/-- An owed record whose bytes are there (R170, R181). -/
theorem State.frameOf_record (hri : s.ri.toNat < s.plen.toNat) (c : Byte) {d : List Byte} (hd : d.length = l.toNat)
    (bs : List Byte) :
    frameOf ⟨s.ver, s.dev, s.plen⟩ s.recs (wireBytes (.record c l d) ++ bs).length
        (decodeRecords t (s.plen.toNat - s.ri.toNat) s.ri (wireBytes (.record c l d) ++ bs)) =
      moreConsumed (wireBytes (.record c l d)).length
        (frameOf ⟨s.ver, s.dev, s.plen⟩ (s.recs ++ [⟨c, l, d⟩]) bs.length
          (decodeRecords t (s.plen.toNat - (s.ri + 1).toNat) (s.ri + 1) bs)) := by
  have hbytes : wireBytes (.record c l d) ++ bs = c :: (u16Bytes l ++ (d ++ bs)) := by simp [wireBytes]
  rw [hbytes, State.frameOf_commandId hri, State.fromLength_field _ (u16Bytes_length l), u16_u16Bytes,
    State.fromData_append d bs hd.le, hd, Nat.sub_self, moreConsumed_moreConsumed, moreConsumed_moreConsumed,
    wireBytes_record_length, hd]
  exact congrArg _ (State.fromData_zero (s := { s with cid := c }) hri bs)

end Records

/-! ## What remains of the decode under way, state by state -/

section Remaining

variable {P : Params} {s : State} {u : Term} {bs : List Byte}

theorem State.remaining_awaitHdr (hst : s.st = .awaitHdr) : s.remaining P u bs = decodeFrame P u bs := by
  simp [State.remaining, hst]

theorem State.remaining_version (hst : s.st = .hdrDec) (hfld : s.fld = .version) :
    s.remaining P u bs = fromVersion P u s.acc (2 - s.cnt.toNat) bs := by
  simp [State.remaining, hst, hfld]

theorem State.remaining_deviceId (hst : s.st = .hdrDec) (hfld : s.fld = .deviceId) :
    s.remaining P u bs = fromDeviceId P u s.ver s.acc (4 - s.cnt.toNat) bs := by
  simp [State.remaining, hst, hfld]

theorem State.remaining_payloadLen (hst : s.st = .hdrDec) (hfld : s.fld = .payloadLen) :
    s.remaining P u bs = fromPayloadLen P u s.ver s.dev s.acc (2 - s.cnt.toNat) bs := by
  simp [State.remaining, hst, hfld]

theorem State.remaining_awaitPay (hst : s.st = .awaitPay) :
    s.remaining P u bs = decodePayload P u ⟨s.ver, s.dev, s.plen⟩ bs := by
  simp [State.remaining, hst]

theorem State.remaining_commandId (hst : s.st = .payDec) (hfld : s.fld = .commandId) :
    s.remaining P u bs = frameOf ⟨s.ver, s.dev, s.plen⟩ s.recs bs.length
      (decodeRecords u (s.plen.toNat - s.ri.toNat) s.ri bs) := by
  simp [State.remaining, hst, hfld]

theorem State.remaining_length (hst : s.st = .payDec) (hfld : s.fld = .length) :
    s.remaining P u bs = s.fromLength u s.acc (2 - s.cnt.toNat) bs := by
  simp [State.remaining, hst, hfld, State.fromLength]

theorem State.remaining_data (hst : s.st = .payDec) (hfld : s.fld = .data) :
    s.remaining P u bs = s.fromData u s.rlen s.dat (s.rlen.toNat - s.cnt.toNat) bs := by
  simp [State.remaining, hst, hfld]

theorem State.remaining_done (hst : s.st = .done) :
    s.remaining P u bs = some (.ok ⟨⟨s.ver, s.dev, s.plen⟩, s.recs⟩, 0) := by
  simp [State.remaining, hst]

theorem State.remaining_fail (e : Err) : (s.fail e).remaining P u bs = some (.err e, 0) := by
  simp [State.remaining]

end Remaining

/-! ## The header, read from the head of the stream (R162, R196) -/

section HeaderFields

variable {P : Params} {u : Term} {seg : List Byte}

theorem fromVersion_field (bs : List Byte) (hseg : seg.length = 2) :
    fromVersion P u 0 2 (seg ++ bs) = moreConsumed 2 (fromDeviceId P u (u16 seg) 0 4 bs) := by
  rw [fromVersion, intThen_field bs hseg, setWidth_u32]

theorem fromDeviceId_field (v : U16) (bs : List Byte) (hseg : seg.length = 4) :
    fromDeviceId P u v 0 4 (seg ++ bs) = moreConsumed 4 (fromPayloadLen P u v (u32 seg) 0 2 bs) := by
  rw [fromDeviceId, intThen_field bs hseg]

theorem fromPayloadLen_field (v : U16) (d : U32) (bs : List Byte) (hseg : seg.length = 2) :
    fromPayloadLen P u v d 0 2 (seg ++ bs) = moreConsumed 2 (decodePayload P u ⟨v, d, u16 seg⟩ bs) := by
  rw [fromPayloadLen, intThen_field bs hseg, setWidth_u32]

/-- A whole header, field by field. -/
theorem fromVersion_header {v d p : List Byte} (bs : List Byte) (hv : v.length = 2) (hd : d.length = 4)
    (hp : p.length = 2) :
    fromVersion P u 0 2 (v ++ (d ++ (p ++ bs))) =
      moreConsumed 8 (decodePayload P u ⟨u16 v, u32 d, u16 p⟩ bs) := by
  rw [fromVersion_field _ hv, fromDeviceId_field _ _ hd, fromPayloadLen_field _ _ _ hp, moreConsumed_moreConsumed,
    moreConsumed_moreConsumed]

/-- Past the header checkpoint the frame is its fields (R134, R196). -/
theorem decodeFrame_of_le {bs : List Byte} (h : 8 ≤ bs.length) : decodeFrame P u bs = fromVersion P u 0 2 bs := by
  have hsplit : bs = bs.take 2 ++ ((bs.drop 2).take 4 ++ ((bs.drop 6).take 2 ++ bs.drop 8)) := by
    have h8 : bs.drop 8 = (bs.drop 6).drop 2 := by rw [List.drop_drop]
    have h6 : bs.drop 6 = (bs.drop 2).drop 4 := by rw [List.drop_drop]
    rw [h8, List.take_append_drop, h6, List.take_append_drop, List.take_append_drop]
  rw [decodeFrame, headerBytes_eq, if_neg (Nat.not_lt.2 h)]
  conv_rhs => rw [hsplit]
  refine (fromVersion_header _ ?_ ?_ ?_).symm <;> simp only [List.length_take, List.length_drop] <;> omega

/-- Past the payload checkpoint the frame is its records (R135, R196). -/
theorem decodePayload_of_le {h : Header} {bs : List Byte} (hle : P.paywin h.payloadLen ≤ bs.length) :
    decodePayload P u h bs = frameOf h [] bs.length (decodeRecords u h.payloadLen.toNat 0 bs) :=
  if_neg (Nat.not_lt.2 hle)

/-! The items as the wire holds them. -/

theorem fromVersion_item (v : U16) (bs : List Byte) :
    fromVersion P u 0 2 (wireBytes (.headerVersion v) ++ bs) = moreConsumed 2 (fromDeviceId P u v 0 4 bs) := by
  rw [fromVersion_field bs (wireBytes_headerVersion_length v), wireBytes, u16_u16Bytes]

theorem fromDeviceId_item (v : U16) (d : U32) (bs : List Byte) :
    fromDeviceId P u v 0 4 (wireBytes (.headerDeviceId d) ++ bs) = moreConsumed 4 (fromPayloadLen P u v d 0 2 bs) := by
  rw [fromDeviceId_field v bs (wireBytes_headerDeviceId_length d), wireBytes, u32_u32Bytes]

theorem fromPayloadLen_item (v : U16) (d : U32) (p : U16) (bs : List Byte) :
    fromPayloadLen P u v d 0 2 (wireBytes (.headerPayloadLen p) ++ bs) =
      moreConsumed 2 (decodePayload P u ⟨v, d, p⟩ bs) := by
  rw [fromPayloadLen_field v d bs (wireBytes_headerPayloadLen_length p), wireBytes, u16_u16Bytes]

theorem fromVersion_headerItem (v : U16) (d : U32) (p : U16) (bs : List Byte) :
    fromVersion P u 0 2 (wireBytes (.header v d p) ++ bs) = moreConsumed 8 (decodePayload P u ⟨v, d, p⟩ bs) := by
  have hbytes : wireBytes (.header v d p) ++ bs = u16Bytes v ++ (u32Bytes d ++ (u16Bytes p ++ bs)) := by
    simp [wireBytes]
  rw [hbytes, fromVersion_header bs (u16Bytes_length v) (u32Bytes_length d) (u16Bytes_length p), u16_u16Bytes,
    u32_u32Bytes, u16_u16Bytes]

end HeaderFields

/-! ## Every operation but the beats, START and RESET keeps the forecast -/

section Forecast

variable {P : Params} {s t : State} {bs : List Byte}

/-- The forecast stays when what remained of the decode is what remains after the bytes taken, and they. -/
theorem Consumes.forecast_eq (hc : Consumes P s bs t) {x y : Option (Result × Nat)}
    (hs : s.remaining P (s.streamEnd P) (bs ++ t.pending) = x) (ht : t.remaining P (s.streamEnd P) t.pending = y)
    (hxy : x = moreConsumed bs.length y) : t.forecast P = s.forecast P := by
  rw [State.forecast, State.forecast, hc.pos, hc.streamEnd, hc.pending, hs, ht, hxy, moreConsumed_moreConsumed]

/-- The forecast stays when the stream and PARSER's registers do. -/
theorem Consumes.forecast_eq_of_remaining (hc : Consumes P s [] t) (hrem : t.remaining P = s.remaining P) :
    t.forecast P = s.forecast P :=
  hc.forecast_eq rfl (congrFun (congrFun hrem _) _) (moreConsumed_zero _).symm

theorem State.buf_length_le_pending (s : State) : s.buf.length ≤ s.pending.length := by simp [State.pending]

theorem State.pending_of_closed (ht : s.term ≠ .opened) : s.pending = s.buf := by simp [State.pending, ht]

theorem State.streamEnd_of_closed (ht : s.term ≠ .opened) : s.streamEnd P = s.term := by simp [State.streamEnd, ht]

/-- A failure needs a closed stream, whose bytes are all buffered. -/
theorem State.forecast_fail {e : Err} (hterm : s.term ≠ .opened)
    (hrem : s.remaining P s.term s.buf = some (.err e, 0)) : (s.fail e).forecast P = s.forecast P := by
  rw [← State.pending_of_closed hterm, ← State.streamEnd_of_closed (P := P) hterm] at hrem
  exact (Consumes.of_same (s := s) (t := s.fail e) rfl rfl rfl rfl).forecast_eq hrem (State.remaining_fail e) rfl

/-- No byte of the integer field is taken: nothing is accumulated (R25). -/
theorem State.Inv.acc_eq_zero (h : s.Inv P) (hst : s.st = .hdrDec ∨ s.st = .payDec ∧ s.fld = .length)
    (hcnt : s.cnt = 0) : s.acc = 0 := by
  have hacc := h.accBound hst
  rw [hcnt] at hacc
  exact BitVec.eq_of_toNat_eq (Nat.lt_one_iff.1 hacc)

/-- A field of which bytes are owed, on a stream without any, comes to its short-read error (R137). -/
theorem State.remaining_nil_of_readsField {i : Instr} {u : Term} (h : s.Inv P) (hi : readsField s i) :
    s.remaining P u [] = (shortfall u (shortErr s)).map fun e => (.err e, 0) := by
  obtain ⟨hst, hfld⟩ | ⟨hst, ⟨-, hfld, hri⟩ | ⟨-, hfld⟩ | ⟨-, hfld, hlt⟩⟩ := hi
  · obtain ⟨-, hcnt⟩ := h.hdrFld hst
    obtain ⟨-, hfld⟩ | ⟨-, hfld⟩ | ⟨-, hfld⟩ := hfld <;> rw [hfld] at hcnt <;>
      rw [shortErr, if_pos hst, hfld]
    · exact (State.remaining_version hst hfld).trans (intThen_nil (Nat.sub_pos_of_lt hcnt))
    · exact (State.remaining_deviceId hst hfld).trans (intThen_nil (Nat.sub_pos_of_lt hcnt))
    · exact (State.remaining_payloadLen hst hfld).trans (intThen_nil (Nat.sub_pos_of_lt hcnt))
  all_goals rw [shortErr, if_neg (by simp [hst]), hfld]
  · have hn : s.plen.toNat - s.ri.toNat = s.plen.toNat - (s.ri.toNat + 1) + 1 := by omega
    rw [State.remaining_commandId hst hfld, hn, decodeRecords_nil]
    exact frameOf_fail1 _
  · obtain ⟨hcnt, -⟩ := h.payBefore hst (by simp [hfld])
    rw [hfld] at hcnt
    exact (State.remaining_length hst hfld).trans (intThen_nil (Nat.sub_pos_of_lt hcnt))
  · exact (State.remaining_data hst hfld).trans (State.fromData_nil (Nat.sub_pos_of_lt hlt))

theorem shortfall_of_closed {u : Term} {e e' : Err}
    (h : u = .eos ∧ e' = e ∨ ∃ c, u = .ioErr c ∧ e' = .ioError c) : shortfall u e = some e' := by
  obtain ⟨rfl, rfl⟩ | ⟨c, rfl, rfl⟩ := h <;> rfl

theorem termCause_of_closed {u : Term} {c : Cause}
    (h : u = .eos ∧ c = .endOfStream ∨ ∃ e, u = .ioErr e ∧ c = .ioError e) : termCause u = some c := by
  obtain ⟨rfl, rfl⟩ | ⟨c, rfl, rfl⟩ := h <;> rfl

/-- What a failure asks of the terminator, whatever is recorded, denies an open stream. -/
theorem ne_opened_of_closed {α : Type} {u : Term} {x y : α} {f : IoCode → α}
    (h : u = .eos ∧ x = y ∨ ∃ c, u = .ioErr c ∧ x = f c) : u ≠ .opened := by
  obtain ⟨rfl, -⟩ | ⟨c, rfl, -⟩ := h <;> simp

/-- A byte that is not the last of its integer field. -/
theorem State.forecast_accumulate {b : Byte}
    (hi : s.st = .hdrDec ∧ (s.fld = .version ∨ s.fld = .deviceId ∨ s.fld = .payloadLen) ∨
      s.st = .payDec ∧ s.fld = .length)
    (hb : s.buf = b :: bs) (hcnt : s.cnt.toNat + 1 < s.fieldWidth s.fld) :
    State.forecast P { s with buf := bs, pos := s.pos + 1, acc := s.accWith b, cnt := s.cnt + 1 } = s.forecast P := by
  have hc : Consumes P s [b] { s with buf := bs, pos := s.pos + 1, acc := s.accWith b, cnt := s.cnt + 1 } :=
    .of_buf_cons hb rfl rfl rfl
  obtain ⟨hst, hfld | hfld | hfld⟩ | ⟨hst, hfld⟩ := hi <;> rw [hfld] at hcnt
  · exact hc.forecast_eq (State.remaining_version hst hfld) (State.remaining_version hst hfld)
      (intThen_byte s b _ hcnt (by decide))
  · exact hc.forecast_eq (State.remaining_deviceId hst hfld) (State.remaining_deviceId hst hfld)
      (intThen_byte s b _ hcnt (by decide))
  · exact hc.forecast_eq (State.remaining_payloadLen hst hfld) (State.remaining_payloadLen hst hfld)
      (intThen_byte s b _ hcnt (by decide))
  · exact hc.forecast_eq (State.remaining_length hst hfld) (State.remaining_length hst hfld)
      (intThen_byte s b _ hcnt (by decide))

end Forecast

/-- No operation but a beat, START and RESET changes the forecast: what remained splits at the bytes taken. -/
theorem Effect.keeps_forecast {P : Params} {s t : State} {i : Instr} (he : Effect P s i t) (h : s.Inv P)
    (hnew : beginsAnew i = false) (hbeat : instrFormat i ≠ .beat) : t.forecast P = s.forecast P := by
  cases he with
  | same => rfl
  | header v d p hg hpre =>
    obtain ⟨hst, hfld, hcnt⟩ := hg
    have hlen := wireBytes_header_length v d p
    refine Consumes.forecast_eq (.of_item hpre hlen rfl rfl rfl rfl) (State.remaining_version hst hfld)
      (State.remaining_awaitPay rfl) ?_
    rw [hlen, h.acc_eq_zero (.inl hst) hcnt, hcnt]
    exact fromVersion_headerItem v d p _
  | headerVersion v hg hpre =>
    obtain ⟨hst, hfld, hcnt⟩ := hg
    have hlen := wireBytes_headerVersion_length v
    refine Consumes.forecast_eq (.of_item hpre hlen rfl rfl rfl rfl) (State.remaining_version hst hfld)
      (State.remaining_deviceId hst rfl) ?_
    rw [hlen, h.acc_eq_zero (.inl hst) hcnt, hcnt]
    exact fromVersion_item v _
  | headerDeviceId d hg hpre =>
    obtain ⟨hst, hfld, hcnt⟩ := hg
    have hlen := wireBytes_headerDeviceId_length d
    refine Consumes.forecast_eq (.of_item hpre hlen rfl rfl rfl rfl) (State.remaining_deviceId hst hfld)
      (State.remaining_payloadLen hst rfl) ?_
    rw [hlen, h.acc_eq_zero (.inl hst) hcnt, hcnt]
    exact fromDeviceId_item _ d _
  | headerPayloadLen p hg hpre =>
    obtain ⟨hst, hfld, hcnt⟩ := hg
    have hlen := wireBytes_headerPayloadLen_length p
    refine Consumes.forecast_eq (.of_item hpre hlen rfl rfl rfl rfl) (State.remaining_payloadLen hst hfld)
      (State.remaining_awaitPay rfl) ?_
    rw [hlen, h.acc_eq_zero (.inl hst) hcnt, hcnt]
    exact fromPayloadLen_item _ _ p _
  | record c l d hg hpre =>
    obtain ⟨hst, hfld, hri, hd⟩ := hg
    exact Consumes.forecast_eq (.of_item hpre rfl rfl rfl rfl rfl) (State.remaining_commandId hst hfld)
      (State.remaining_commandId hst rfl) (State.frameOf_record hri c hd _)
  | recordCommandId c hg hpre =>
    obtain ⟨hst, hfld, hri⟩ := hg
    exact Consumes.forecast_eq (.of_item hpre rfl rfl rfl rfl rfl) (State.remaining_commandId hst hfld)
      (State.remaining_length hst rfl) (State.frameOf_commandId hri c _)
  | recordLength l hg hpre =>
    obtain ⟨hst, hfld, hcnt⟩ := hg
    have hlen := wireBytes_recordLength_length l
    refine Consumes.forecast_eq (.of_item hpre hlen rfl rfl rfl rfl) (State.remaining_length hst hfld)
      (State.remaining_data hst rfl) ?_
    rw [hlen, h.acc_eq_zero (.inr ⟨hst, hfld⟩) hcnt, hcnt]
    exact (State.fromLength_field _ hlen).trans (by rw [wireBytes, u16_u16Bytes]; rfl)
  | recordData d hg hpre =>
    obtain ⟨hst, hfld, hcnt, hd⟩ := hg
    refine Consumes.forecast_eq (.of_item hpre rfl rfl rfl rfl rfl) (State.remaining_data hst hfld)
      (State.remaining_data hst hfld) ?_
    rw [hcnt, wireBytes]
    refine (State.fromData_append d _ hd.le).trans ?_
    rw [hd]
    rfl
  | peekHdr hst hbuf =>
    have hle : 8 ≤ s.pending.length := hbuf.trans s.buf_length_le_pending
    exact Consumes.forecast_eq (.of_same rfl rfl rfl rfl) (State.remaining_awaitHdr hst)
      (State.remaining_version rfl rfl) ((decodeFrame_of_le hle).trans (moreConsumed_zero _).symm)
  | peekHdrFail c hst hlt hterm =>
    refine State.forecast_fail (ne_opened_of_closed hterm) ?_
    rw [State.remaining_awaitHdr hst, decodeFrame, headerBytes_eq, if_pos hlt, termCause_of_closed hterm]
    rfl
  | peekPay hst hbuf =>
    have hle : P.paywin s.plen ≤ s.pending.length := hbuf.trans s.buf_length_le_pending
    obtain ⟨hrecs, -⟩ := h.freshRecs (.inr (.inr hst))
    refine Consumes.forecast_eq (.of_same rfl rfl rfl rfl) (State.remaining_awaitPay hst)
      (State.remaining_commandId rfl rfl) ?_
    refine (decodePayload_of_le hle).trans ?_
    rw [hrecs]
    exact (moreConsumed_zero _).symm
  | peekPayFail c hst hlt hterm =>
    refine State.forecast_fail (ne_opened_of_closed hterm) ?_
    rw [State.remaining_awaitPay hst, decodePayload, if_pos hlt, termCause_of_closed hterm]
    rfl
  | readFail i e hi hbuf hterm =>
    refine State.forecast_fail (ne_opened_of_closed hterm) ?_
    rw [hbuf, State.remaining_nil_of_readsField h hi, shortfall_of_closed hterm]
    rfl
  | accumulate i b bs hi hc hd hb hcnt => exact State.forecast_accumulate (hi.intField hc hd) hb hcnt
  | hdrVersion b bs hst hfld hb hlast =>
    obtain ⟨-, hcnt⟩ := h.hdrFld hst
    rw [hfld] at hcnt
    exact Consumes.forecast_eq (.of_buf_cons hb rfl rfl rfl) (State.remaining_version hst hfld)
      (State.remaining_deviceId hst rfl) (intThen_lastByte s b _ hcnt hlast)
  | hdrDeviceId b bs hst hfld hb hlast =>
    obtain ⟨-, hcnt⟩ := h.hdrFld hst
    rw [hfld] at hcnt
    exact Consumes.forecast_eq (.of_buf_cons hb rfl rfl rfl) (State.remaining_deviceId hst hfld)
      (State.remaining_payloadLen hst rfl) (intThen_lastByte s b _ hcnt hlast)
  | hdrPayloadLen b bs hst hfld hb hlast =>
    obtain ⟨-, hcnt⟩ := h.hdrFld hst
    rw [hfld] at hcnt
    exact Consumes.forecast_eq (.of_buf_cons hb rfl rfl rfl) (State.remaining_payloadLen hst hfld)
      (State.remaining_awaitPay rfl) (intThen_lastByte s b _ hcnt hlast)
  | recCommandId b bs hst hfld hri hb =>
    exact Consumes.forecast_eq (.of_buf_cons hb rfl rfl rfl) (State.remaining_commandId hst hfld)
      (State.remaining_length hst rfl) (State.frameOf_commandId hri b _)
  | recLength b bs hst hfld hb hlast =>
    obtain ⟨hcnt, -⟩ := h.payBefore hst (by simp [hfld])
    rw [hfld] at hcnt
    exact Consumes.forecast_eq (.of_buf_cons hb rfl rfl rfl) (State.remaining_length hst hfld)
      (State.remaining_data hst rfl) (intThen_lastByte s b _ hcnt hlast)
  | recData b bs hst hfld hlt hb =>
    have hsucc := toNat_succ_of_lt hlt
    refine Consumes.forecast_eq (.of_buf_cons hb rfl rfl rfl) (State.remaining_data hst hfld)
      (State.remaining_data hst hfld) ?_
    rw [hsucc, ← Nat.sub_sub]
    exact State.fromData_append [b] _ (Nat.sub_pos_of_lt hlt)
  | recCommit hst hfld hcnt =>
    have hri := h.payOwed hst (by simp [hfld])
    refine Consumes.forecast_eq (.of_same rfl rfl rfl rfl) (State.remaining_data hst hfld)
      (State.remaining_commandId hst rfl) ?_
    rw [hcnt, Nat.sub_self]
    exact (State.fromData_zero hri _).trans (moreConsumed_zero _).symm
  | assemble hst hfld hri =>
    refine Consumes.forecast_eq (.of_same rfl rfl rfl rfl) (State.remaining_commandId hst hfld)
      (State.remaining_done rfl) ?_
    rw [hri, Nat.sub_self]
    simp [decodeRecords, frameOf]
  | recSel | recOff | read => exact Consumes.forecast_eq_of_remaining (.of_same rfl rfl rfl rfl) rfl
  | srcData | srcEos | srcErr => exact absurd rfl hbeat
  | start | reset => cases hnew

/-! ## The operation of a word has the word's format (R107) -/

theorem decodeWire_format {k : WireKind} {bs rest : List Byte} {i : Instr} (h : decodeWire k bs = .ok i rest) :
    instrFormat i = .wire := by
  cases k <;> simp only [decodeWire] at h
  case header => unfold readHeader at h; split at h <;> cases h; rfl
  case headerVersion | headerPayloadLen | recordLength => unfold readU16 at h; split at h <;> cases h; rfl
  case headerDeviceId => unfold readU32 at h; split at h <;> cases h; rfl
  case recordCommandId => unfold readU8 at h; split at h <;> cases h; rfl
  case recordData n => unfold readData at h; split at h <;> cases h; rfl
  case record =>
    unfold readRecord at h
    split at h
    · unfold readData at h; split at h <;> cases h; rfl
    · cases h

theorem decodeStep_format {cw : BitVec 6} {ri plen cnt rlen : U16} {rest : List Byte} {i : Instr}
    (h : decodeStep cw ri plen cnt rlen = .ok i rest) : instrFormat i = .step := by
  have hrows : ∀ r ∈ stepRows, instrFormat r.instr = .step := by decide
  unfold decodeStep at h
  split at h
  next r hr => cases h; exact hrows r (List.mem_of_find?_eq_some hr)
  next => split_ifs at h

theorem decodeRead_format (num : BitVec 4) : instrFormat (decodeRead num) = .host := by
  unfold decodeRead; split <;> rfl

theorem decodeWrite_format {num : BitVec 4} {w : U32} {rest : List Byte} {i : Instr}
    (h : decodeWrite num w = .ok i rest) : instrFormat i = .host := by
  unfold decodeWrite at h
  split at h <;> cases h <;> rfl

/-- Only SOURCE's words select beats. -/
theorem decode_format_ne_beat {w : OpWord} {i : Instr} {rest : List Byte} (hw : wordFormat w ≠ .beat)
    (h : decode w = .ok i rest) : instrFormat i ≠ .beat := by
  cases w with
  | wire k bs => rw [decodeWire_format h]; decide
  | step cw ri plen cnt rlen => rw [decodeStep_format h]; decide
  | beat k d => exact absurd rfl hw
  | host we num w =>
    cases we with
    | true => rw [decodeWrite_format h]; decide
    | false => cases h; rw [decodeRead_format]; decide
  | rst level =>
    cases level with
    | true => cases h; decide
    | false => cases h

/-- No agent but SOURCE performs a beat. -/
theorem State.fetch_format_ne_beat {P : Params} {s : State} {i : Instr} (hturn : s.turn P ≠ .source)
    (h : s.fetch P = some i) : instrFormat i ≠ .beat := by
  obtain ⟨w, hw, hi⟩ := Option.bind_eq_some_iff.1 h
  have hformat : wordFormat w ≠ .beat := by
    cases ht : s.turn P <;> rw [ht] at hw hturn <;> simp only [State.wordFor, Option.map_eq_some_iff] at hw
    case source => exact absurd rfl hturn
    case parser => cases hw; exact nofun
    case host => obtain ⟨q, -, rfl⟩ := hw; cases q <;> exact nofun
    case item | field => obtain ⟨k, -, rfl⟩ := hw; exact nofun
  cases hd : decode w with
  | ok i' rest => rw [hd] at hi; cases hi; exact decode_format_ne_beat hformat hd
  | reject r => rw [hd] at hi; cases hi

/-! ## Every step but START and RESET keeps the forecast -/

section Step

variable {P : Params} {s t : State}

/-- A beat is held and nothing changes, or it is accepted and does what its kind says (R130 to R133). -/
theorem execWith_beat_next {k : BitVec 2} {d : Byte} {i : Instr} {rest : List Byte}
    (hd : decode (.beat k d) = .ok i rest) (h : execWith P i s = .next t) :
    s.inReady P k = false ∧ t = s ∨
      s.inReady P k = true ∧ s.term = .opened ∧
        (k = 0 ∧ t = s.push d ∨ k = 1 ∧ t = s.close .eos ∨ k = 2 ∧ t = s.close (.ioErr (P.code d))) := by
  have hkinds : ∀ k : BitVec 2, k = 0 ∨ k = 1 ∨ k = 2 ∨ k = 3 := by decide
  rw [← Bool.not_eq_true, State.inReady_iff]
  obtain rfl | rfl | rfl | rfl := hkinds k <;> cases hd
  · obtain ⟨-, h⟩ := State.whenReset_next.1 h
    obtain ⟨⟨hopen, hroom⟩, h⟩ | ⟨hg, rfl⟩ := State.when_next.1 h
    · cases h; exact .inr ⟨⟨hopen, by decide, .inr hroom⟩, hopen, .inl ⟨rfl, rfl⟩⟩
    · exact .inl ⟨fun ⟨hopen, _, hr⟩ => hg ⟨hopen, hr.resolve_left (by simp)⟩, rfl⟩
  · obtain ⟨-, h⟩ := State.whenReset_next.1 h
    obtain ⟨hopen, h⟩ | ⟨hg, rfl⟩ := State.when_next.1 h
    · cases h; exact .inr ⟨⟨hopen, by decide, .inl (by decide)⟩, hopen, .inr (.inl ⟨rfl, rfl⟩)⟩
    · exact .inl ⟨fun ⟨hopen, _⟩ => hg hopen, rfl⟩
  · obtain ⟨-, h⟩ := State.whenReset_next.1 h
    obtain ⟨hopen, h⟩ | ⟨hg, rfl⟩ := State.when_next.1 h
    · cases h; exact .inr ⟨⟨hopen, by decide, .inl (by decide)⟩, hopen, .inr (.inr ⟨rfl, rfl⟩)⟩
    · exact .inl ⟨fun ⟨hopen, _⟩ => hg hopen, rfl⟩
  · obtain ⟨-, h⟩ := State.whenReset_next.1 h
    cases h; exact .inl ⟨fun ⟨_, hk, _⟩ => hk rfl, rfl⟩

/-- A beat always selects an operation (R105). -/
theorem decode_beat_isOk (k : BitVec 2) (d : Byte) : ∃ i, decode (.beat k d) = .ok i [] := by
  simp only [decode, decodeBeat]
  split <;> exact ⟨_, rfl⟩

/-- A turn of another agent than SOURCE leaves the stream. -/
theorem State.forecast_spend {a : Turn} (ha : a ≠ .source) : (s.spend P a).forecast P = s.forecast P := by
  cases a with
  | source => exact absurd rfl ha
  | _ => rfl

/-- SOURCE's turn moves the head of what it holds into the reader: the stream and its end stay (R65, R130 to R132). -/
theorem forecast_of_sourceTurn (hturn : s.turn P = .source) (hstep : stepWith P s = .next t) :
    t.forecast P = s.forecast P := by
  cases hs : s.env.source with
  | nil =>
    have hfetch : s.fetch P = none := by simp [State.fetch, hturn, State.wordFor, hs]
    have hspend : s.spend P .source = s.popTurn := by simp [State.spend, State.sourceReady, hs]
    simp only [stepWith, turnStep, hfetch, hturn, hspend] at hstep
    cases hstep
    rfl
  | cons b bs =>
    obtain ⟨i, hd⟩ := decode_beat_isOk b.kind b.data
    have hfetch : s.fetch P = some i := by simp [State.fetch, hturn, State.wordFor, hs, hd, decodedInstr]
    have hready : s.sourceReady P = s.inReady P b.kind := by simp [State.sourceReady, hs]
    simp only [stepWith, turnStep, hfetch, hturn] at hstep
    have hin : (s.spend P .source).inReady P b.kind = s.inReady P b.kind := by
      obtain ⟨e, he⟩ := State.spend_eq_withEnv P s .source
      rw [he]; rfl
    obtain ⟨hheld, rfl⟩ | ⟨hacc, hopen, hkind⟩ := execWith_beat_next hd hstep
    · rw [hin] at hheld
      have hspend : s.spend P .source = s.popTurn := by simp [State.spend, hready, hheld]
      rw [hspend]
      rfl
    · rw [hin] at hacc
      have hspend : s.spend P .source = s.popTurn.popSource := by simp [State.spend, hready, hacc]
      rw [hspend] at hkind hopen
      have hopen' : s.term = .opened := hopen
      obtain ⟨hk, rfl⟩ | ⟨hk, rfl⟩ | ⟨hk, rfl⟩ := hkind <;>
        refine Consumes.forecast_eq_of_remaining { pending := ?_, pos := rfl, streamEnd := ?_ } rfl <;>
        simp [State.pending, State.streamEnd, hopen', hs, dataPrefix, beatsEnd, hk]

/-- No agent's step but START and RESET changes the forecast, for every value of the parameters (R77). -/
theorem stepWith_keeps_forecast (h : s.Inv P) (hnew : ∀ i, s.fetch P = some i → beginsAnew i = false)
    (hstep : stepWith P s = .next t) : t.forecast P = s.forecast P := by
  by_cases hturn : s.turn P = .source
  · exact forecast_of_sourceTurn hturn hstep
  · have hspent := State.forecast_spend (P := P) (s := s) hturn
    obtain rfl | ⟨i, hi, hex⟩ := turnStep_next hstep
    · exact hspent
    · obtain ⟨e, he⟩ := State.spend_eq_withEnv P s (s.turn P)
      have hinv : (s.spend P (s.turn P)).Inv P := he ▸ h.withOthers s.term s.recSel s.recOff e
      exact ((execWith_effect hex).keeps_forecast hinv (hnew i hi) (State.fetch_format_ne_beat hturn hi)).trans hspent

end Step

/-! ## What the forecast takes from the parameters -/

section Parameters

variable {P Q : Params}

theorem code_congr (hio : P.iocodeW = Q.iocodeW) (c : IoCode) : P.code c = Q.code c := by
  rw [Params.code, hio, Params.code]

theorem beatsEnd_congr (hio : P.iocodeW = Q.iocodeW) (bs : List Beat) : beatsEnd P bs = beatsEnd Q bs := by
  induction bs with
  | nil => rfl
  | cons b bs ih => simp only [beatsEnd, ih, code_congr hio]

theorem State.remaining_congr (hpay : P.paywin = Q.paywin) (s : State) : s.remaining P = s.remaining Q := by
  have hpayload : decodePayload P = decodePayload Q := by
    funext t h bs
    simp only [decodePayload, hpay]
  funext t bs
  simp only [State.remaining, decodeFrame, fromVersion, fromDeviceId, fromPayloadLen, hpayload]

/-- `BUFCAP` and `STORE` have no part in the forecast (R77). -/
theorem State.forecast_congr (hpay : P.paywin = Q.paywin) (hio : P.iocodeW = Q.iocodeW) (s : State) :
    s.forecast P = s.forecast Q := by
  rw [State.forecast, State.forecast, State.streamEnd, State.streamEnd, beatsEnd_congr hio, State.remaining_congr hpay]

end Parameters

/-- Settles O56: `stepWith_keeps_forecast`, which this hardware's parameters specialise, and `State.forecast_congr`. -/
theorem forecastDoesNotDependOnSchedule : Obligations.ForecastDoesNotDependOnSchedule := by
  unfold Obligations.ForecastDoesNotDependOnSchedule
  exact ⟨fun s t h hnew hstep => stepWith_keeps_forecast h hnew (step_eq_stepWith s ▸ hstep),
    fun P s t h hnew hstep => stepWith_keeps_forecast h hnew hstep,
    fun P Q s hpay hio => State.forecast_congr hpay hio s⟩

end Sys2Proof.Machine

end

/-! # Encoding: byte order, wire items, the step decode table, the function forms of the decode (30_encoding)

PROOFS of the statements about the two directions of the wire encoding, the selection of PARSER's steps, the codes and
spec words, the wire items at the cursor, the function forms of the decode against `enc`, and the run that decodes a
frame. -/

section

namespace Sys2Proof.Machine

open Sys2Proof

/-! ## Byte order -/

theorem be_lt (s : List Byte) : be s < 256 ^ s.length := by
  induction s using List.reverseRecOn with
  | nil => simp [be]
  | append_singleton s b ih =>
    have := b.isLt
    rw [be_append, List.length_append, List.length_singleton, pow_succ]
    omega

/-- `beN` is a left inverse of `be` too (R112). -/
theorem beBytes_be (s : List Byte) : beBytes s.length (be s) = s := by
  induction s using List.reverseRecOn with
  | nil => rfl
  | append_singleton s b ih =>
    have hdiv : (be s * 256 + b.toNat) / 256 = be s := by omega
    have hlast : BitVec.ofNat 8 (be s * 256 + b.toNat) = b := by
      apply BitVec.eq_of_toNat_eq
      rw [BitVec.toNat_ofNat]
      omega
    rw [List.length_append, List.length_singleton, beBytes, be_append, hdiv, ih, hlast]

theorem u16_toNat {s : List Byte} (hs : s.length = 2) : (u16 s).toNat = be s := by
  have hlt := be_lt s
  rw [hs] at hlt
  exact (BitVec.toNat_ofNat ..).trans (Nat.mod_eq_of_lt hlt)

theorem u32_toNat {s : List Byte} (hs : s.length = 4) : (u32 s).toNat = be s := by
  have hlt := be_lt s
  rw [hs] at hlt
  exact (BitVec.toNat_ofNat ..).trans (Nat.mod_eq_of_lt hlt)

/-- Two bytes are the encoding of the 16-bit field they are read as (R94, R112). -/
theorem u16Bytes_u16 {s : List Byte} (hs : s.length = 2) : u16Bytes (u16 s) = s := by
  rw [u16Bytes, u16_toNat hs, ← hs, beBytes_be]

/-- Four bytes are the encoding of the 32-bit field they are read as (R94, R112). -/
theorem u32Bytes_u32 {s : List Byte} (hs : s.length = 4) : u32Bytes (u32 s) = s := by
  rw [u32Bytes, u32_toNat hs, ← hs, beBytes_be]

/-! ## Wire items

What each reader answers, in both directions: its value is read exactly from its own bytes, and it rejects nothing but
bytes that are too few (R94, R95, R96). -/

section Readers

variable {mk8 : Byte → Instr} {mk16 : U16 → Instr} {mk32 : U32 → Instr} {mkData : List Byte → Instr}
  {bs rest : List Byte} {i : Instr} {r : Reject} {n : Nat}

theorem readU8_eq_ok_iff : readU8 mk8 bs = .ok i rest ↔ ∃ b, mk8 b = i ∧ b :: rest = bs := by
  cases bs with
  | nil => simp [readU8]
  | cons b bs => simp [readU8, eq_comm]

theorem readU16_eq_ok_iff : readU16 mk16 bs = .ok i rest ↔ ∃ v, mk16 v = i ∧ u16Bytes v ++ rest = bs := by
  constructor
  · intro h
    unfold readU16 at h
    split at h
    next b1 b0 _ =>
      cases h
      exact ⟨_, rfl, congrArg (· ++ rest) (u16Bytes_u16 (s := [b1, b0]) rfl)⟩
    next => cases h
  · rintro ⟨v, rfl, rfl⟩
    exact congrArg (fun v => Decoded.ok (mk16 v) rest) (u16_u16Bytes v)

theorem readU32_eq_ok_iff : readU32 mk32 bs = .ok i rest ↔ ∃ v, mk32 v = i ∧ u32Bytes v ++ rest = bs := by
  constructor
  · intro h
    unfold readU32 at h
    split at h
    next b3 b2 b1 b0 _ =>
      cases h
      exact ⟨_, rfl, congrArg (· ++ rest) (u32Bytes_u32 (s := [b3, b2, b1, b0]) rfl)⟩
    next => cases h
  · rintro ⟨v, rfl, rfl⟩
    exact congrArg (fun v => Decoded.ok (mk32 v) rest) (u32_u32Bytes v)

theorem readData_eq_ok_iff :
    readData mkData n bs = .ok i rest ↔ ∃ d, d.length = n ∧ mkData d = i ∧ d ++ rest = bs := by
  unfold readData
  constructor
  · intro h
    split_ifs at h with hn
    cases h
    exact ⟨_, List.length_take_of_le hn, rfl, List.take_append_drop n bs⟩
  · rintro ⟨d, rfl, rfl, rfl⟩
    simp

theorem readHeader_eq_ok_iff :
    readHeader bs = .ok i rest ↔ ∃ v d p, .header v d p = i ∧ wireBytes (.header v d p) ++ rest = bs := by
  constructor
  · intro h
    unfold readHeader at h
    split at h
    next v1 v0 d3 d2 d1 d0 p1 p0 _ =>
      cases h
      refine ⟨_, _, _, rfl, ?_⟩
      rw [wireBytes, u16Bytes_u16 rfl, u32Bytes_u32 rfl, u16Bytes_u16 rfl]
      rfl
    next => cases h
  · rintro ⟨v, d, p, rfl, rfl⟩
    have hread : readHeader (wireBytes (.header v d p) ++ rest) =
        .ok (.header (u16 (u16Bytes v)) (u32 (u32Bytes d)) (u16 (u16Bytes p))) rest := rfl
    rw [hread, u16_u16Bytes, u32_u32Bytes, u16_u16Bytes]

theorem readRecord_eq_ok_iff :
    readRecord bs = .ok i rest ↔
      ∃ c l d, d.length = l.toNat ∧ .record c l d = i ∧ wireBytes (.record c l d) ++ rest = bs := by
  constructor
  · intro h
    unfold readRecord at h
    split at h
    next c l1 l0 _ =>
      obtain ⟨d, hd, rfl, rfl⟩ := readData_eq_ok_iff.1 h
      refine ⟨c, _, d, hd, rfl, ?_⟩
      rw [wireBytes, u16Bytes_u16 rfl]
      rfl
    next => cases h
  · rintro ⟨c, l, d, hd, rfl, rfl⟩
    have hread : readRecord (wireBytes (.record c l d) ++ rest) =
        readData (.record c (u16 (u16Bytes l))) (u16 (u16Bytes l)).toNat (d ++ rest) := rfl
    rw [hread, u16_u16Bytes]
    exact readData_eq_ok_iff.2 ⟨d, hd, rfl, rfl⟩

theorem readU8_eq_reject (h : readU8 mk8 bs = .reject r) : r = .truncated ∧ bs = [] := by
  match bs with
  | [] => cases h; exact ⟨rfl, rfl⟩
  | _ :: _ => cases h

theorem readU16_eq_reject (h : readU16 mk16 bs = .reject r) : r = .truncated ∧ bs.length < 2 := by
  match bs with
  | [] | [_] => cases h; simp
  | _ :: _ :: _ => cases h

theorem readU32_eq_reject (h : readU32 mk32 bs = .reject r) : r = .truncated ∧ bs.length < 4 := by
  match bs with
  | [] | [_] | [_, _] | [_, _, _] => cases h; simp
  | _ :: _ :: _ :: _ :: _ => cases h

theorem readData_eq_reject (h : readData mkData n bs = .reject r) : r = .truncated ∧ bs.length < n := by
  unfold readData at h
  split_ifs at h with hn
  cases h
  exact ⟨rfl, Nat.lt_of_not_le hn⟩

theorem readHeader_eq_reject (h : readHeader bs = .reject r) : r = .truncated ∧ bs.length < 8 := by
  match bs with
  | [] | [_] | [_, _] | [_, _, _] | [_, _, _, _] | [_, _, _, _, _] | [_, _, _, _, _, _] | [_, _, _, _, _, _, _] =>
    cases h; simp
  | _ :: _ :: _ :: _ :: _ :: _ :: _ :: _ :: _ => cases h

/-- Two bytes as the value R94 gives them. -/
theorem u16_pair (b1 b0 : Byte) : u16 [b1, b0] = BitVec.ofNat 16 (b1.toNat * 256 + b0.toNat) := by simp [u16, be]

theorem u16_pair_toNat (b1 b0 : Byte) : (u16 [b1, b0]).toNat = b1.toNat * 256 + b0.toNat := by
  rw [u16_toNat rfl]
  simp [be]

theorem readRecord_eq_reject (h : readRecord bs = .reject r) :
    r = .truncated ∧ (bs.length < 3 ∨
      ∃ c l1 l0 d, bs = c :: l1 :: l0 :: d ∧ d.length < l1.toNat * 256 + l0.toNat) := by
  match bs with
  | [] | [_] | [_, _] => cases h; simp
  | c :: l1 :: l0 :: d =>
    obtain ⟨hr, hd⟩ := readData_eq_reject h
    exact ⟨hr, .inr ⟨c, l1, l0, d, rfl, u16_pair_toNat l1 l0 ▸ hd⟩⟩

end Readers

/-- What is decoded from wire bytes is a well-formed item of the kind, and its bytes are the first of them. -/
theorem encode_of_decode_wire {k : WireKind} {bs rest : List Byte} {i : Instr} (h : decode (.wire k bs) = .ok i rest) :
    wireBytes i ++ rest = bs ∧ WellFormed i = true ∧ encode i = .wire k (wireBytes i) := by
  cases k with
  | header => obtain ⟨v, d, p, rfl, hbs⟩ := readHeader_eq_ok_iff.1 h; exact ⟨hbs, rfl, rfl⟩
  | headerVersion => obtain ⟨v, rfl, hbs⟩ := readU16_eq_ok_iff.1 h; exact ⟨hbs, rfl, rfl⟩
  | headerDeviceId => obtain ⟨d, rfl, hbs⟩ := readU32_eq_ok_iff.1 h; exact ⟨hbs, rfl, rfl⟩
  | headerPayloadLen => obtain ⟨p, rfl, hbs⟩ := readU16_eq_ok_iff.1 h; exact ⟨hbs, rfl, rfl⟩
  | record =>
    obtain ⟨c, l, d, hd, rfl, hbs⟩ := readRecord_eq_ok_iff.1 h
    exact ⟨hbs, beq_iff_eq.2 hd, rfl⟩
  | recordCommandId => obtain ⟨c, rfl, hbs⟩ := readU8_eq_ok_iff.1 h; exact ⟨hbs, rfl, rfl⟩
  | recordLength => obtain ⟨l, rfl, hbs⟩ := readU16_eq_ok_iff.1 h; exact ⟨hbs, rfl, rfl⟩
  | recordData n =>
    obtain ⟨d, hd, rfl, hbs⟩ := readData_eq_ok_iff.1 h
    have hn : BitVec.ofNat 16 d.length = n := by rw [hd, BitVec.ofNat_toNat, BitVec.setWidth_eq]
    exact ⟨hbs, decide_eq_true (hd ▸ n.isLt), by rw [encode, hn]⟩

/-- A well-formed wire item is read back from its bytes, whatever follows them. -/
theorem decode_wire_of_encode {k : WireKind} {bs : List Byte} {i : Instr} (hi : WellFormed i = true)
    (h : encode i = .wire k bs) (tail : List Byte) : decode (.wire k (bs ++ tail)) = .ok i tail := by
  cases i with
  | header v d p => cases h; exact readHeader_eq_ok_iff.2 ⟨v, d, p, rfl, rfl⟩
  | headerVersion v => cases h; exact readU16_eq_ok_iff.2 ⟨v, rfl, rfl⟩
  | headerDeviceId d => cases h; exact readU32_eq_ok_iff.2 ⟨d, rfl, rfl⟩
  | headerPayloadLen p => cases h; exact readU16_eq_ok_iff.2 ⟨p, rfl, rfl⟩
  | record c l d => cases h; exact readRecord_eq_ok_iff.2 ⟨c, l, d, beq_iff_eq.1 hi, rfl, rfl⟩
  | recordCommandId c => cases h; exact readU8_eq_ok_iff.2 ⟨c, rfl, rfl⟩
  | recordLength l => cases h; exact readU16_eq_ok_iff.2 ⟨l, rfl, rfl⟩
  | recordData d =>
    cases h
    refine readData_eq_ok_iff.2 ⟨d, ?_, rfl, rfl⟩
    rw [BitVec.toNat_ofNat, Nat.mod_eq_of_lt (of_decide_eq_true hi)]
  | _ => cases h

/-- The words of the other three formats are decoded by the tables of R100, R105 and R106. -/
theorem decode_encode_of_not_wire {i : Instr} (hi : WellFormed i = true) (hwire : instrFormat i ≠ .wire) :
    decode (encode i) = .ok i [] := by
  cases i with
  | header | headerVersion | headerDeviceId | headerPayloadLen | record | recordCommandId | recordLength | recordData =>
    exact absurd rfl hwire
  | rdregReserved n => obtain rfl | rfl | rfl | rfl := reservedNum_cases (of_decide_eq_true hi) <;> rfl
  | _ => rfl

/-- The word of a wire item is wire bytes. -/
theorem encode_wire_of_format {i : Instr} (h : instrFormat i = .wire) : ∃ k bs, encode i = .wire k bs := by
  cases i with
  | header | headerVersion | headerDeviceId | headerPayloadLen | record | recordCommandId | recordLength | recordData =>
    exact ⟨_, _, rfl⟩
  | _ => cases h

/-- Settles O1: wire items by `decode_wire_of_encode`, the other formats by their tables. -/
theorem decodeOfEncode : Obligations.DecodeOfEncode := by
  unfold Obligations.DecodeOfEncode
  refine ⟨fun i hi => ?_, fun i k bs tail hi h => decode_wire_of_encode hi h tail⟩
  by_cases hwire : instrFormat i = .wire
  · obtain ⟨k, bs, h⟩ := encode_wire_of_format hwire
    have hdec := decode_wire_of_encode hi h []
    rwa [List.append_nil, ← h] at hdec
  · exact decode_encode_of_not_wire hi hwire

/-- Settles O2: `encode_of_decode_wire`. -/
theorem wireDecodeKeepsEveryByte : Obligations.WireDecodeKeepsEveryByte := by
  unfold Obligations.WireDecodeKeepsEveryByte
  exact fun k bs i rest h => encode_of_decode_wire h

/-- Bytes that are rejected are too few for the item (R96). -/
theorem decode_wire_eq_reject {k : WireKind} {bs : List Byte} {r : Reject} (h : decode (.wire k bs) = .reject r) :
    r = .truncated ∧
    (k = .header → bs.length < 8) ∧
    (k = .headerVersion ∨ k = .headerPayloadLen ∨ k = .recordLength → bs.length < 2) ∧
    (k = .headerDeviceId → bs.length < 4) ∧
    (k = .recordCommandId → bs = []) ∧
    (∀ n, k = .recordData n → bs.length < n.toNat) ∧
    (k = .record → bs.length < 3 ∨
      ∃ c l1 l0 d, bs = c :: l1 :: l0 :: d ∧ d.length < l1.toNat * 256 + l0.toNat) := by
  cases k with
  | header => simpa using readHeader_eq_reject h
  | headerVersion | headerPayloadLen | recordLength => simpa using readU16_eq_reject h
  | headerDeviceId => simpa using readU32_eq_reject h
  | record => simpa using readRecord_eq_reject h
  | recordCommandId => simpa using readU8_eq_reject h
  | recordData n => simpa using readData_eq_reject h

/-- Eight bytes or more begin with a header (R96). -/
theorem exists_header_append {bs : List Byte} (h : 8 ≤ bs.length) :
    ∃ v d p rest, wireBytes (.header v d p) ++ rest = bs := by
  cases hd : readHeader bs with
  | ok i rest =>
    obtain ⟨v, d, p, -, hbs⟩ := readHeader_eq_ok_iff.1 hd
    exact ⟨v, d, p, rest, hbs⟩
  | reject r =>
    obtain ⟨-, hlt⟩ := readHeader_eq_reject hd
    omega

/-- Settles O3: any bytes split into fields, and `decode_wire_eq_reject` says when they do not. -/
theorem everyBitPatternDecodes : Obligations.EveryBitPatternDecodes := by
  unfold Obligations.EveryBitPatternDecodes
  refine ⟨fun bs hbs => ?header, fun c l1 l0 d hd => ?record, fun k bs r h => decode_wire_eq_reject h⟩
  case header =>
    obtain ⟨v, d, p, rest, rfl⟩ := exists_header_append hbs.ge
    rw [List.length_append, wireBytes_header_length] at hbs
    obtain rfl : rest = [] := List.eq_nil_of_length_eq_zero (by omega)
    exact ⟨v, d, p, readHeader_eq_ok_iff.2 ⟨v, d, p, rfl, rfl⟩⟩
  case record =>
    have hl : (u16 [l1, l0]).toNat = d.length := (u16_pair_toNat l1 l0).trans hd.symm
    exact ⟨u16 [l1, l0], hl, readData_eq_ok_iff.2 ⟨d, hl.symm, rfl, List.append_nil d⟩⟩

/-! ## The step decode table

At most one row of R100 selects, so the row that `decodeStep` finds is the row whose match and guard hold. -/

/-- Data guards that two rows of one control word have and that never hold together (R100). -/
def Guard.excludes : Guard → Guard → Bool
  | .riEqPlen, .riLtPlen => true
  | .riLtPlen, .riEqPlen => true
  | .cntLtRlen, .cntEqRlen => true
  | .cntEqRlen, .cntLtRlen => true
  | _, _ => false

section StepTable

variable {cw : BitVec 6} {ri plen cnt rlen : U16}

theorem not_lt_of_beq {x y : U16} (heq : (x == y) = true) : ¬ decide (x.toNat < y.toNat) = true := by
  rw [eq_of_beq heq]
  simp

theorem Guard.not_both_of_excludes {g g' : Guard} (h : Guard.excludes g g' = true)
    (hg : g.holds ri plen cnt rlen = true) : ¬ g'.holds ri plen cnt rlen = true := by
  unfold Guard.excludes at h
  split at h
  · exact not_lt_of_beq hg
  · exact fun hg' => not_lt_of_beq hg' hg
  · exact fun hg' => not_lt_of_beq hg' hg
  · exact not_lt_of_beq hg
  · cases h

theorem StepRow.selects_iff {r : StepRow} :
    r.selects cw ri plen cnt rlen = true ↔ cw &&& r.mask = r.bits ∧ r.guard.holds ri plen cnt rlen = true := by
  simp [StepRow.selects, StepRow.matchesWord]

/-- Two rows that match one word are one row or have exclusive guards: their bits agree where both masks look. -/
theorem stepRows_overlap : ∀ r ∈ stepRows, ∀ r' ∈ stepRows, r.bits &&& r'.mask = r'.bits &&& r.mask →
    r = r' ∨ Guard.excludes r.guard r'.guard = true := by decide

theorem stepRows_instr_inj : ∀ r ∈ stepRows, ∀ r' ∈ stepRows, r.instr = r'.instr → r = r' := by decide

/-- At most one row selects (R100). -/
theorem stepRow_unique {r r' : StepRow} (hr : r ∈ stepRows) (hr' : r' ∈ stepRows)
    (hsel : r.selects cw ri plen cnt rlen = true) (hsel' : r'.selects cw ri plen cnt rlen = true) : r = r' := by
  obtain ⟨hbits, hguard⟩ := StepRow.selects_iff.1 hsel
  obtain ⟨hbits', hguard'⟩ := StepRow.selects_iff.1 hsel'
  have hoverlap : r.bits &&& r'.mask = r'.bits &&& r.mask := by
    rw [← hbits, ← hbits', BitVec.and_assoc, BitVec.and_comm r.mask, BitVec.and_assoc]
  exact (stepRows_overlap r hr r' hr' hoverlap).resolve_right fun hex => Guard.not_both_of_excludes hex hguard hguard'

/-- A control word is decoded to the operation of the row that selects (R100). -/
theorem decode_step_eq_ok_iff {i : Instr} {rest : List Byte} :
    decode (.step cw ri plen cnt rlen) = .ok i rest ↔
      ∃ r ∈ stepRows, r.selects cw ri plen cnt rlen = true ∧ r.instr = i ∧ rest = [] := by
  simp only [decode, decodeStep]
  constructor
  · intro h
    split at h
    next r hr =>
      have hsel := List.find?_some hr
      cases h
      exact ⟨r, List.mem_of_find?_eq_some hr, hsel, rfl, rfl⟩
    next => split_ifs at h
  · rintro ⟨r, hr, hsel, rfl, rfl⟩
    split
    next r' hr' =>
      have hsel' := List.find?_some hr'
      rw [stepRow_unique hr (List.mem_of_find?_eq_some hr') hsel hsel']
    next hnone => exact absurd hsel (List.find?_eq_none.1 hnone r hr)

theorem decode_step_row_iff {r : StepRow} (hr : r ∈ stepRows) :
    decode (.step cw ri plen cnt rlen) = .ok r.instr [] ↔
      cw &&& r.mask = r.bits ∧ r.guard.holds ri plen cnt rlen = true := by
  rw [decode_step_eq_ok_iff, ← StepRow.selects_iff]
  constructor
  · rintro ⟨r', hr', hsel, hinstr, -⟩
    rwa [← stepRows_instr_inj r' hr' r hr hinstr]
  · exact fun hsel => ⟨r, hr, hsel, rfl, rfl⟩

/-- A row whose mask leaves the field out. -/
theorem decode_step_of_state {bits : BitVec 6} {i : Instr} (hr : ⟨bits, 0x38#6, .always, i⟩ ∈ stepRows) :
    decode (.step cw ri plen cnt rlen) = .ok i [] ↔ cw &&& 0x38 = bits :=
  (decode_step_row_iff hr).trans (and_iff_left rfl)

/-- A row whose mask is full. -/
theorem decode_step_of_word {bits : BitVec 6} {g : Guard} {i : Instr} (hr : ⟨bits, 0x3F#6, g, i⟩ ∈ stepRows) :
    decode (.step cw ri plen cnt rlen) = .ok i [] ↔ cw = bits ∧ g.holds ri plen cnt rlen = true := by
  have hand : cw &&& 0x3F#6 = cw := BitVec.and_allOnes
  rw [decode_step_row_iff hr, hand]

theorem decode_step_always {bits : BitVec 6} {i : Instr} (hr : ⟨bits, 0x3F#6, .always, i⟩ ∈ stepRows) :
    decode (.step cw ri plen cnt rlen) = .ok i [] ↔ cw = bits :=
  (decode_step_of_word hr).trans (and_iff_left rfl)

/-- IDLE, DONE and FAILED have no step: every row looks at the whole state code, and none has theirs (R100). -/
theorem decode_step_noParserStep (hst : cw >>> 3 = 0 ∨ cw >>> 3 = 5 ∨ cw >>> 3 = 6) :
    decode (.step cw ri plen cnt rlen) = .reject .noParserStep := by
  have hrows : ∀ r ∈ stepRows, r.mask >>> 3 = 7#6 ∧ r.bits >>> 3 ≠ 0 ∧ r.bits >>> 3 ≠ 5 ∧ r.bits >>> 3 ≠ 6 := by decide
  have hnot : ∀ r ∈ stepRows, r.matchesWord cw = false := by
    intro r hr
    obtain ⟨hmask, h0, h5, h6⟩ := hrows r hr
    rw [StepRow.matchesWord, beq_eq_false_iff_ne]
    intro hbits
    have hcode : cw >>> 3 &&& 7#6 = r.bits >>> 3 := by rw [← hbits, BitVec.ushiftRight_and_distrib, hmask]
    obtain h | h | h := hst <;> rw [h] at hcode
    · exact h0 hcode.symm
    · exact h5 hcode.symm
    · exact h6 hcode.symm
  have hfind : stepRows.find? (fun r => r.selects cw ri plen cnt rlen) = none :=
    List.find?_eq_none.2 fun r hr => by simp [StepRow.selects, hnot r hr]
  have hany : stepRows.any (fun r => r.matchesWord cw) = false := List.any_eq_false.2 fun r hr => by simp [hnot r hr]
  have hcode : (cw >>> 3 == 0 || cw >>> 3 == 5 || cw >>> 3 == 6) = true := by
    simpa [or_assoc] using hst
  simp only [decode, decodeStep, hfind, hany, hcode]
  rfl

end StepTable

/-- Settles O4: each clause is the row of its operation. -/
theorem stepTableSelects : Obligations.StepTableSelects := by
  unfold Obligations.StepTableSelects
  refine ⟨fun s => ?word, fun cw ri plen cnt rlen => ⟨fun i rest h => ?row, decode_step_noParserStep,
    decode_step_of_state (by decide), decode_step_always (by decide), decode_step_always (by decide),
    decode_step_always (by decide), decode_step_of_state (by decide), ?assemble, ?commandId,
    decode_step_always (by decide), ?data, ?commit⟩⟩
  case word =>
    rw [State.cw, toNat_append_eq_mul_add]
    omega
  case row =>
    obtain ⟨-, -, -, -, hrest⟩ := decode_step_eq_ok_iff.1 h
    exact ⟨decodeStep_format h, hrest⟩
  case assemble => exact (decode_step_of_word (g := .riEqPlen) (by decide)).trans (and_congr_right' beq_iff_eq)
  case commandId => exact (decode_step_of_word (g := .riLtPlen) (by decide)).trans (and_congr_right' decide_eq_true_iff)
  case data => exact (decode_step_of_word (g := .cntLtRlen) (by decide)).trans (and_congr_right' decide_eq_true_iff)
  case commit => exact (decode_step_of_word (g := .cntEqRlen) (by decide)).trans (and_congr_right' beq_iff_eq)

/-! ## Codes and words of the spec's tables -/

/-- Settles O5: the tables of R98, R99 and R23, read off the definitions. -/
theorem codesOfStAndFld : Obligations.CodesOfStAndFld := by
  unfold Obligations.CodesOfStAndFld
  exact ⟨by decide, by decide, fun s => rfl⟩

/-- Settles O6: the decoder evaluated at each word. -/
theorem specWordsDecode : Obligations.SpecWordsDecode := by
  unfold Obligations.SpecWordsDecode
  decide

/-! ## The wire items at the cursor (log 5) -/

/-- Four bytes as the value R94 gives them. -/
theorem u32_quad (b3 b2 b1 b0 : Byte) :
    u32 [b3, b2, b1, b0] =
      BitVec.ofNat 32 (b3.toNat * 2 ^ 24 + b2.toNat * 2 ^ 16 + b1.toNat * 2 ^ 8 + b0.toNat) := by
  have hbe : be [b3, b2, b1, b0] = b3.toNat * 2 ^ 24 + b2.toNat * 2 ^ 16 + b1.toNat * 2 ^ 8 + b0.toNat := by
    simp only [be, List.foldl_cons, List.foldl_nil]
    omega
  rw [u32, hbe]

/-- A wire item that stands at the cursor is taken and goes on. -/
theorem State.wireItem_of {s : State} {bs tail : List Byte} {p : Prop} [Decidable p] (hr : s.rstSeen = true) (hp : p)
    (hpend : s.pending = bs ++ tail) (k : State → Out) : s.wireItem bs p k = k (s.takeStream bs.length) :=
  State.guarded_of hr ⟨hp, List.isPrefixOf_iff_prefix.2 ⟨tail, hpend.symm⟩⟩ _

/-- Settles O28: the bytes at the cursor are those of the item with the field values of R162. -/
theorem headerItemsAreDecoded : Obligations.HeaderItemsAreDecoded := by
  unfold Obligations.HeaderItemsAreDecoded
  intro s h0 h1 h2 h3 h4 h5 h6 h7 tail hr hst hcnt
  rw [← u16_pair, ← u32_quad, ← u16_pair]
  have hv : u16Bytes (u16 [h0, h1]) = [h0, h1] := u16Bytes_u16 rfl
  have hd : u32Bytes (u32 [h2, h3, h4, h5]) = [h2, h3, h4, h5] := u32Bytes_u32 rfl
  have hp : u16Bytes (u16 [h6, h7]) = [h6, h7] := u16Bytes_u16 rfl
  refine ⟨fun hfld hpend => ?header, fun hfld hpend => ?version, fun hfld hpend => ?deviceId,
    fun hfld hpend => ?payloadLen⟩
  case header =>
    have hitem : s.pending = wireBytes (.header (u16 [h0, h1]) (u32 [h2, h3, h4, h5]) (u16 [h6, h7])) ++ tail := by
      rw [hpend, wireBytes, hv, hd, hp]
      rfl
    rw [exec, execHeader, State.wireItem_of hr ⟨hst, hfld, hcnt⟩ hitem, wireBytes_header_length]
    rfl
  case version =>
    have hitem : s.pending = wireBytes (.headerVersion (u16 [h0, h1])) ++ tail := by rw [hpend, wireBytes, hv]
    rw [exec, execHeaderVersion, State.wireItem_of hr ⟨hst, hfld, hcnt⟩ hitem, wireBytes_headerVersion_length]
    rfl
  case deviceId =>
    have hitem : s.pending = wireBytes (.headerDeviceId (u32 [h2, h3, h4, h5])) ++ tail := by rw [hpend, wireBytes, hd]
    rw [exec, execHeaderDeviceId, State.wireItem_of hr ⟨hst, hfld, hcnt⟩ hitem, wireBytes_headerDeviceId_length]
    rfl
  case payloadLen =>
    have hitem : s.pending = wireBytes (.headerPayloadLen (u16 [h6, h7])) ++ tail := by rw [hpend, wireBytes, hp]
    rw [exec, execHeaderPayloadLen, State.wireItem_of hr ⟨hst, hfld, hcnt⟩ hitem, wireBytes_headerPayloadLen_length]
    rfl

/-- A record, its Length from two bytes, as the wire holds it. -/
theorem wireBytes_record_pair (c l1 l0 : Byte) (d : List Byte) :
    wireBytes (.record c (u16 [l1, l0]) d) = [c, l1, l0] ++ d := by
  rw [wireBytes, u16Bytes_u16 rfl]
  rfl

/-- What a RECORD leaves that is taken from the stream and committed (R174, R181). -/
def State.takeRecord (s : State) (r : Record) : State :=
  State.commit { s.takeStream (encRecord r).length with cid := r.commandId, rlen := r.length } r

/-- A record fits a store exactly when it exceeds none of its bounds (log 26). -/
theorem Params.fits_iff {P : Params} {n : Nat} {len : U16} :
    P.fits n len = true ↔ ∀ r d, P.store = .bounded r d → n < r ∧ len.toNat ≤ d := by
  cases hP : P.store with
  | unbounded => simp [Params.fits, hP]
  | bounded r d =>
    rw [Params.fits_bounded hP]
    exact ⟨fun h r' d' hP' => by cases hP'; exact h, fun h => h r d rfl⟩

/-- RECORD at the cursor, offered to the store of `P`. -/
theorem execRecordWith_of {P : Params} {s : State} {c : Byte} {l : U16} {d tail : List Byte} (hr : s.rstSeen = true)
    (hst : s.st = .payDec) (hfld : s.fld = .commandId) (hri : s.ri.toNat < s.plen.toNat) (hd : d.length = l.toNat)
    (hpend : s.pending = wireBytes (.record c l d) ++ tail) :
    execWith P (.record c l d) s = s.store P ⟨c, l, d⟩ (.next (s.takeRecord ⟨c, l, d⟩)) := by
  rw [execWith, execRecordWith, State.wireItem_of hr ⟨hst, hfld, hri, hd⟩ hpend]
  rfl

/-- Settles O29: RECORD by `execRecordWith_of`, whose store takes or refuses it; its fields by `State.wireItem_of`. -/
theorem recordItemsAreDecoded : Obligations.RecordItemsAreDecoded := by
  unfold Obligations.RecordItemsAreDecoded
  intro s c l1 l0 d tail hr hst
  rw [← u16_pair]
  have hl : u16Bytes (u16 [l1, l0]) = [l1, l0] := u16Bytes_u16 rfl
  refine ⟨fun hfld hri hd hpend => ?record, fun hfld hri hpend => ?commandId, fun hfld hcnt hpend => ?length,
    fun hfld hcnt hd hpend => ?data⟩
  case record =>
    have hd' : d.length = (u16 [l1, l0]).toNat := by rw [hd, u16_pair_toNat]
    have hrec : ∀ P, execWith P (.record c (u16 [l1, l0]) d) s =
        s.store P ⟨c, u16 [l1, l0], d⟩ (.next (s.takeRecord ⟨c, u16 [l1, l0], d⟩)) := fun P =>
      execRecordWith_of hr hst hfld hri hd' (tail := tail) (by rw [hpend, wireBytes_record_pair])
    rw [exec_eq_execWith, hrec, State.store_hardware]
    refine ⟨?_, fun P => ⟨fun hfits => ?_, fun r n hP hfull => ?_⟩⟩
    · rw [State.takeRecord, encRecord, wireBytes_record_length]
      rfl
    · rw [hrec]
      exact if_pos (Params.fits_iff.2 (hd' ▸ hfits))
    · rw [hrec]
      refine if_neg (Params.fits_iff.not.2 fun hfits => ?_)
      obtain ⟨hn, hlen⟩ := hfits r n hP
      exact hfull.elim hn.not_ge (hd' ▸ hlen).not_gt
  case commandId =>
    rw [exec, execRecordCommandId, wireBytes, State.wireItem_of hr ⟨hst, hfld, hri⟩ hpend]
    rfl
  case length =>
    have hitem : s.pending = wireBytes (.recordLength (u16 [l1, l0])) ++ tail := by rw [hpend, wireBytes, hl]
    rw [exec, execRecordLength, State.wireItem_of hr ⟨hst, hfld, hcnt⟩ hitem, wireBytes_recordLength_length]
    rfl
  case data =>
    rw [exec, execRecordData, wireBytes, State.wireItem_of hr ⟨hst, hfld, hcnt, hd⟩ hpend]
    rfl

/-! ## The function forms against the reference encoder (R112, R181, R196)

A decode that succeeds is exactly one whose bytes begin with the frame's encoding. -/

theorem encRecord_length (r : Record) : (encRecord r).length = 3 + r.data.length := wireBytes_record_length ..

section FunctionFormsOfEnc

variable {P : Params} {t : Term} {n : Nat} {i : U16} {bs rest : List Byte} {rs : List Record}

theorem Record.wf_iff {r : Record} : r.wf = true ↔ r.data.length = r.length.toNat := beq_iff_eq

theorem consRecord_eq_ok_iff {r : Record} {o : RecordsOutcome} :
    consRecord r o = .ok rs rest ↔ ∃ rs', r :: rs' = rs ∧ o = .ok rs' rest := by
  cases o <;> simp [consRecord]

/-- The encoding of a record is decoded to it, and the sequence goes on behind it. -/
theorem decodeRecords_encRecord {r : Record} (hr : r.wf = true) (bs : List Byte) :
    decodeRecords t (n + 1) i (encRecord r ++ bs) = consRecord r (decodeRecords t n (i + 1) bs) := by
  obtain ⟨c, l, d⟩ := r
  have hd : d.length = l.toNat := Record.wf_iff.1 hr
  have hbytes : encRecord ⟨c, l, d⟩ ++ bs =
    c :: BitVec.ofNat 8 (l.toNat / 256) :: BitVec.ofNat 8 l.toNat :: (d ++ bs) := rfl
  have hl : u16 [BitVec.ofNat 8 (l.toNat / 256), BitVec.ofNat 8 l.toNat] = l := u16_u16Bytes l
  rw [hbytes, decodeRecords_record _ _ _ (by rw [hl, ← hd, List.length_append]; omega), hl, ← hd, List.take_left,
    List.drop_left]

theorem decodeRecords_succ_eq_ok_iff :
    decodeRecords t (n + 1) i bs = .ok rs rest ↔
      ∃ r rs' bs', r.wf = true ∧ encRecord r ++ bs' = bs ∧ r :: rs' = rs ∧
        decodeRecords t n (i + 1) bs' = .ok rs' rest := by
  constructor
  · intro h
    match bs with
    | [] => rw [decodeRecords_nil] at h; exact absurd h (fail1_ne_ok _ _ _)
    | [_] | [_, _] => rw [decodeRecords_shortLength _ (by simp)] at h; exact absurd h (fail1_ne_ok _ _ _)
    | c :: l1 :: l0 :: bs =>
      by_cases hbs : bs.length < (u16 [l1, l0]).toNat
      · rw [decodeRecords_shortData c l1 l0 hbs] at h; exact absurd h (fail1_ne_ok _ _ _)
      · have hle := Nat.le_of_not_lt hbs
        rw [decodeRecords_record c l1 l0 hle] at h
        obtain ⟨rs', hrs, hrest⟩ := consRecord_eq_ok_iff.1 h
        refine ⟨_, rs', _, Record.wf_iff.2 (List.length_take_of_le hle), ?_, hrs, hrest⟩
        rw [encRecord, wireBytes_record_pair, List.append_assoc, List.take_append_drop]
        rfl
  · rintro ⟨r, rs', bs', hr, rfl, hrs, h⟩
    rw [decodeRecords_encRecord hr]
    exact consRecord_eq_ok_iff.2 ⟨rs', hrs, h⟩

/-- Records are decoded exactly from their encodings (R181). -/
theorem decodeRecords_eq_ok_iff :
    decodeRecords t n i bs = .ok rs rest ↔
      rs.length = n ∧ rs.all Record.wf = true ∧ rs.flatMap encRecord ++ rest = bs := by
  induction n generalizing i bs rs with
  | zero =>
    rw [decodeRecords, List.length_eq_zero_iff]
    constructor
    · intro h; cases h; exact ⟨rfl, rfl, rfl⟩
    · rintro ⟨rfl, -, rfl⟩; rfl
  | succ n ih =>
    simp only [decodeRecords_succ_eq_ok_iff, ih]
    constructor
    · rintro ⟨r, rs', bs', hr, rfl, rfl, rfl, hrs', rfl⟩
      exact ⟨rfl, by rw [List.all_cons, hr, hrs', Bool.true_and], by rw [List.flatMap_cons, List.append_assoc]⟩
    · rintro ⟨hlen, hwf, rfl⟩
      obtain ⟨r, rs', rfl⟩ := List.exists_cons_of_length_eq_add_one hlen
      rw [List.all_cons, Bool.and_eq_true] at hwf
      obtain ⟨hr, hrs'⟩ := hwf
      exact ⟨r, rs', _, hr, by rw [List.flatMap_cons, List.append_assoc], rfl, Nat.succ.inj hlen, hrs', rfl⟩

theorem Frame.wf_iff {f : Frame} :
    f.wf = true ↔ f.records.length = f.header.payloadLen.toNat ∧ f.records.all Record.wf = true := by
  rw [Frame.wf, Bool.and_eq_true, beq_iff_eq]

theorem encFrame_mk (v : U16) (d : U32) (p : U16) (rs : List Record) :
    encFrame ⟨⟨v, d, p⟩, rs⟩ = wireBytes (.header v d p) ++ rs.flatMap encRecord := rfl

theorem frameOf_eq_ok_iff {h : Header} {pre : List Record} {o : RecordsOutcome} {f : Frame} {m : Nat} :
    frameOf h pre n o = some (.ok f, m) ↔
      ∃ rs rest, o = .ok rs rest ∧ (⟨h, pre ++ rs⟩ : Frame) = f ∧ n - rest.length = m := by
  cases o <;> simp [frameOf]

/-- The payload is decoded exactly from the encodings of the records the header announces, once the payload checkpoint is
met (R196). -/
theorem decodePayload_eq_ok_iff {h : Header} {f : Frame} {m : Nat} :
    decodePayload P t h bs = some (.ok f, m) ↔
      P.paywin h.payloadLen ≤ bs.length ∧ f.header = h ∧ f.wf = true ∧ m = (f.records.flatMap encRecord).length ∧
        f.records.flatMap encRecord <+: bs := by
  by_cases hpay : P.paywin h.payloadLen ≤ bs.length
  · rw [decodePayload_of_le hpay, frameOf_eq_ok_iff]
    simp only [decodeRecords_eq_ok_iff, Frame.wf_iff, hpay, true_and]
    constructor
    · rintro ⟨rs, rest, ⟨hlen, hwf, rfl⟩, rfl, rfl⟩
      exact ⟨rfl, ⟨hlen, hwf⟩, by rw [List.length_append, Nat.add_sub_cancel]; rfl, rest, rfl⟩
    · rintro ⟨rfl, ⟨hlen, hwf⟩, rfl, rest, rfl⟩
      exact ⟨f.records, rest, ⟨hlen, hwf, rfl⟩, rfl, by rw [List.length_append, Nat.add_sub_cancel]⟩
  · rw [decodePayload, if_pos (Nat.lt_of_not_le hpay)]
    simp [hpay]

theorem decodeFrame_header (v : U16) (d : U32) (p : U16) (bs : List Byte) :
    decodeFrame P t (wireBytes (.header v d p) ++ bs) = moreConsumed 8 (decodePayload P t ⟨v, d, p⟩ bs) := by
  have hle : 8 ≤ (wireBytes (.header v d p) ++ bs).length := by
    rw [List.length_append, wireBytes_header_length]
    omega
  rw [decodeFrame_of_le hle, fromVersion_headerItem]

theorem moreConsumed_eq_some_iff {o : Option (Result × Nat)} {k m : Nat} {r : Result} :
    moreConsumed k o = some (r, m) ↔ ∃ j, o = some (r, j) ∧ m = j + k := by
  cases o with
  | none => simp [moreConsumed]
  | some p => simp [moreConsumed, Prod.ext_iff, eq_comm]

/-- A decode succeeds exactly when its bytes begin with the encoding of a well-formed frame and meet the payload
checkpoint, and it consumes that encoding (R196, R197). -/
theorem decodeFrame_eq_ok_iff {f : Frame} {m : Nat} :
    decodeFrame P t bs = some (.ok f, m) ↔
      f.wf = true ∧ 8 + P.paywin f.header.payloadLen ≤ bs.length ∧ m = (encFrame f).length ∧ encFrame f <+: bs := by
  obtain ⟨⟨v, d, p⟩, rs⟩ := f
  by_cases hlen : 8 ≤ bs.length
  · obtain ⟨v', d', p', bs, rfl⟩ := exists_header_append hlen
    have hlength := wireBytes_header_length v' d' p'
    rw [decodeFrame_header, moreConsumed_eq_some_iff, encFrame_mk, List.length_append, List.length_append, hlength,
      wireBytes_header_length]
    simp only [decodePayload_eq_ok_iff]
    constructor
    · rintro ⟨j, ⟨hpay, hhead, hwf, rfl, hpre⟩, rfl⟩
      cases hhead
      exact ⟨hwf, by omega, Nat.add_comm .., (List.prefix_append_right_inj _).2 hpre⟩
    · rintro ⟨hwf, hpay, rfl, hpre⟩
      obtain ⟨rest, hrest⟩ := hpre
      rw [List.append_assoc] at hrest
      have hhead := readHeader_eq_ok_iff.2 ⟨v, d, p, rfl, hrest⟩
      rw [readHeader_eq_ok_iff.2 ⟨v', d', p', rfl, rfl⟩] at hhead
      cases hhead
      exact ⟨_, ⟨by omega, rfl, hwf, rfl, rest, rfl⟩, Nat.add_comm ..⟩
  · rw [decodeFrame, headerBytes_eq, if_pos (Nat.lt_of_not_le hlen)]
    simp only [Option.map_eq_some_iff, Prod.mk.injEq, reduceCtorEq, false_and, and_false, exists_false, false_iff]
    omega

end FunctionFormsOfEnc

/-- The bytes of well-formed records: 3 and its Length for each (R90, R197). -/
theorem flatMap_encRecord_length {rs : List Record} (h : rs.all Record.wf = true) :
    (rs.flatMap encRecord).length = (rs.map fun r => 3 + r.length.toNat).sum := by
  rw [List.length_flatMap]
  congr 1
  refine List.map_congr_left fun r hr => ?_
  rw [encRecord_length, Record.wf_iff.1 (List.all_eq_true.1 h r hr)]

theorem encFrame_length {f : Frame} (h : f.wf = true) :
    (encFrame f).length = 8 + (f.records.map fun r => 3 + r.length.toNat).sum := by
  rw [encFrame, List.length_append, wireBytes_header_length, flatMap_encRecord_length (Frame.wf_iff.1 h).2]

/-- A record takes three bytes at least. -/
theorem three_mul_length_le (rs : List Record) : 3 * rs.length ≤ (rs.flatMap encRecord).length := by
  induction rs with
  | nil => exact le_rfl
  | cons r rs ih =>
    rw [List.flatMap_cons, List.length_append, List.length_cons, encRecord_length]
    omega

/-- The records of a well-formed frame are enough bytes for a payload checkpoint that R6 allows (D5). -/
theorem paywin_le_records_length {P : Params} (hP : P.Legal) {f : Frame} (hf : f.wf = true) :
    P.paywin f.header.payloadLen ≤ (f.records.flatMap encRecord).length := by
  obtain ⟨hlen, -⟩ := Frame.wf_iff.1 hf
  have hpay := hP.paywinLe f.header.payloadLen
  have hrecs := three_mul_length_le f.records
  omega

/-- Settles O57: `decodeFrame_eq_ok_iff`, whose payload checkpoint a legal `PAYWIN` lets pass. -/
theorem decodeFrameOfEnc : Obligations.DecodeFrameOfEnc := by
  unfold Obligations.DecodeFrameOfEnc
  intro P f tail t hP hf
  refine decodeFrame_eq_ok_iff.2 ⟨hf, ?_, rfl, tail, rfl⟩
  have hpay := paywin_le_records_length hP hf
  rw [List.length_append, encFrame, List.length_append, wireBytes_header_length]
  omega

/-- Settles O58: `decodeFrame_eq_ok_iff` with the length of the encoding. -/
theorem decodedFrameIsItsBytes : Obligations.DecodedFrameIsItsBytes := by
  unfold Obligations.DecodedFrameIsItsBytes
  intro P t bs f n h
  obtain ⟨hf, -, rfl, rest, rfl⟩ := decodeFrame_eq_ok_iff.1 h
  exact ⟨hf, encFrame_length hf, List.take_left⟩

/-! ## Runs under the default order (log 15)

With no turn listed PARSER steps whenever a byte or an end is there, and otherwise SOURCE sends its next byte: PARSER's
byte steps take the stream's bytes one after another, whether they are buffered or SOURCE still holds them. -/

/-- Under the parameters `P`, `k` steps lead from `s` to `t`. -/
def RunsTo (P : Params) (k : Nat) (s t : State) : Prop := Host.Core.run (machineWith P) k s = .next t

theorem RunsTo.refl (P : Params) (s : State) : RunsTo P 0 s s := rfl

theorem RunsTo.step {P : Params} {s t u : State} {k : Nat} (h : stepWith P s = .next t) (hk : RunsTo P k t u) :
    RunsTo P (k + 1) s u := by
  change Host.Core.run (machineWith P) (k + 1) s = _
  simp only [Host.Core.run, machineWith, h]
  exact hk

theorem RunsTo.one {P : Params} {s t : State} (h : stepWith P s = .next t) : RunsTo P 1 s t := .step h (.refl P t)

theorem RunsTo.trans {P : Params} {s t u : State} {j k : Nat} (h : RunsTo P j s t) (hk : RunsTo P k t u) :
    RunsTo P (j + k) s u := by
  induction j generalizing s with
  | zero => cases h; rwa [Nat.zero_add]
  | succ j ih =>
    unfold RunsTo at h
    simp only [Host.Core.run, machineWith] at h
    rw [Nat.succ_add]
    cases hs : stepWith P s with
    | next s' => rw [hs] at h; exact .step hs (ih h)
    | fault r => rw [hs] at h; cases h
    | refused r => rw [hs] at h; cases h

/-- The host's machine is the parametric one at this hardware's parameters (log 10). -/
theorem run_core_eq (k : Nat) (s : State) :
    Host.Core.run Sys2Proof.core k s = Host.Core.run (machineWith Config.hardware) k s := by
  induction k generalizing s with
  | zero => rfl
  | succ k ih =>
    simp only [Host.Core.run, Sys2Proof.core, machineWith, step_eq_stepWith]
    cases stepWith Config.hardware s with
    | next t => exact ih t
    | fault r => rfl
    | refused r => rfl

/-- After a reset, with no turn listed: the agents move in the default order. -/
structure State.Unscheduled (s : State) : Prop where
  rstSeen : s.rstSeen = true
  turns : s.env.turns = []

section OneStep

variable {P : Params} {s : State}

theorem State.popTurn_of_nil (h : s.env.turns = []) : s.popTurn = s := by
  have henv : { s.env with turns := s.env.turns.tail } = s.env := by rw [h, List.tail_nil, ← h]
  rw [State.popTurn, henv]

/-- PARSER's enabled step is taken. -/
theorem stepWith_of_parserReady {i : Instr} {rest : List Byte} (hs : s.Unscheduled)
    (hd : decode s.parserWord = .ok i rest) (hready : s.parserReady P = true) : stepWith P s = execWith P i s := by
  have hturn : s.turn P = .parser := by rw [State.turn_of_nil hs.turns, if_pos hready]
  have hspend : s.spend P .parser = s := State.popTurn_of_nil hs.turns
  simp only [stepWith, turnStep, State.fetch, hturn, State.wordFor, Option.bind_some, hd, decodedInstr, hspend]

/-- While PARSER waits, SOURCE's byte enters the buffer (R130). -/
theorem stepWith_of_sourceReady {b : Byte} {bs : List Beat} (hs : s.Unscheduled) (hwait : s.parserReady P = false)
    (hopen : s.term = .opened) (hsrc : s.env.source = ⟨0, b⟩ :: bs) (hroom : P.room s.buf.length = true) :
    stepWith P s = .next (s.popSource.push b) := by
  have hready : s.sourceReady P = true :=
    State.sourceReady_iff.2 ⟨_, _, hsrc, State.inReady_iff.2 ⟨hopen, by simp, .inr hroom⟩⟩
  have hturn : s.turn P = .source := by
    rw [State.turn_of_nil hs.turns, if_neg (by simp [hwait]), if_pos hready]
  have hspend : s.spend P .source = s.popSource := by
    rw [State.spend, if_pos hready, State.popTurn_of_nil hs.turns]
  have hd : decode (.beat 0 b) = .ok (.srcData b) [] := rfl
  simp only [stepWith, turnStep, State.fetch, hturn, State.wordFor, hsrc, List.head?_cons, Option.map_some,
    Option.bind_some, hd, decodedInstr, hspend]
  exact State.guarded_of (s := s.popSource) hs.rstSeen ⟨hopen, hroom⟩ _

end OneStep

/-! ## SOURCE fills the buffer -/

/-- SOURCE's next `k` bytes have entered the buffer. -/
def State.refill (s : State) (k : Nat) : State :=
  { s with
    buf := s.buf ++ (dataPrefix s.env.source).take k
    env := { s.env with source := s.env.source.drop k } }

section Refill

variable {P : Params} {s : State} {k n : Nat}

@[simp] theorem State.refill_zero (s : State) : s.refill 0 = s := by simp [State.refill]

/-- One byte, and then `k` more. -/
theorem State.refill_push {b : Byte} {bs : List Beat} (hsrc : s.env.source = ⟨0, b⟩ :: bs) (k : Nat) :
    (s.popSource.push b).refill k = s.refill (k + 1) := by
  simp [State.refill, State.push, State.popSource, hsrc, dataPrefix]

theorem State.refill_buf_length (hk : k ≤ (dataPrefix s.env.source).length) :
    (s.refill k).buf.length = s.buf.length + k := by
  simp [State.refill, hk]

@[simp] theorem State.takeStream_zero (s : State) : s.takeStream 0 = s := by simp [State.takeStream]

theorem State.takeStream_takeStream (s : State) (m n : Nat) : (s.takeStream m).takeStream n = s.takeStream (m + n) := by
  have hsrc : m - s.buf.length + (n - (s.buf.length - m)) = m + n - s.buf.length := by omega
  simp [State.takeStream, hsrc, Nat.add_assoc]

/-- Bytes that passed through the buffer are taken, whenever they entered it. -/
theorem State.takeStream_refill (hk : k ≤ (dataPrefix s.env.source).length) (hn : s.buf.length + k ≤ n) :
    (s.refill k).takeStream n = s.takeStream n := by
  have hbuf : (s.refill k).buf.drop n = s.buf.drop n := by
    rw [List.drop_of_length_le (by rw [State.refill_buf_length hk]; exact hn), List.drop_of_length_le (by omega)]
  have hsrc : k + (n - (s.refill k).buf.length) = n - s.buf.length := by rw [State.refill_buf_length hk]; omega
  rw [State.takeStream, hbuf]
  simp only [State.refill, List.drop_drop] at hsrc ⊢
  rw [hsrc]
  rfl

theorem State.pending_of_opened (hopen : s.term = .opened) : s.pending = s.buf ++ dataPrefix s.env.source := by
  rw [State.pending, if_pos hopen]

/-- Refilling moves bytes within the stream. -/
theorem State.pending_refill (hopen : s.term = .opened) (hk : k ≤ (dataPrefix s.env.source).length) :
    (s.refill k).pending = s.pending := by
  rw [State.pending_of_opened hopen, State.pending_of_opened (s := s.refill k) hopen]
  simp only [State.refill]
  rw [dataPrefix_drop _ hk, List.append_assoc, List.take_append_drop]

/-- While PARSER waits for `k` more bytes, SOURCE sends them. -/
theorem runsTo_refill (hs : s.Unscheduled) (hopen : s.term = .opened) (hk : k ≤ (dataPrefix s.env.source).length)
    (hwait : ∀ bs e, bs.length < s.buf.length + k → State.parserReady P { s with buf := bs, env := e } = false)
    (hroom : ∀ n < s.buf.length + k, P.room n = true) : RunsTo P k s (s.refill k) := by
  induction k generalizing s with
  | zero => rw [State.refill_zero]; exact .refl P s
  | succ k ih =>
    obtain ⟨b, bs, hsrc⟩ : ∃ b bs, s.env.source = ⟨0, b⟩ :: bs := by
      cases hsrc : s.env.source with
      | nil => simp [hsrc, dataPrefix] at hk
      | cons b bs =>
        by_cases hkind : b.kind = 0
        · exact ⟨b.data, bs, by rw [← hkind]⟩
        · rw [hsrc, dataPrefix_cons_other hkind] at hk
          simp at hk
    have hlen : (s.popSource.push b).buf.length = s.buf.length + 1 := List.length_append
    rw [← State.refill_push hsrc]
    refine .step (stepWith_of_sourceReady hs (hwait s.buf s.env (by omega)) hopen hsrc (hroom _ (by omega)))
      (ih ⟨hs.rstSeen, hs.turns⟩ hopen ?_ (fun bs e hbs => hwait bs e (by omega)) fun n hn => hroom n (by omega))
    rw [hsrc, dataPrefix] at hk
    simpa [State.popSource, hsrc] using hk

end Refill

/-! ## The bytes of a field, one step each -/

/-- PARSER takes `bytes` from the stream in `steps` of its own, SOURCE sending first what is not buffered. -/
structure ParserRun (P : Params) (steps bytes : Nat) (s t : State) : Prop where
  run : RunsTo P (steps + (bytes - s.buf.length)) s t
  buf : t.buf = s.buf.drop bytes

/-- PARSER's word selects the step that hands its byte to `deliver`, whatever the buffer and the agents hold (R137). -/
def Delivers (P : Params) (s : State) (deliver : Byte → State → State) : Prop :=
  ∃ i e, readsField s i ∧ decode s.parserWord = .ok i [] ∧
    ∀ bs env, execWith P i { s with buf := bs, env := env } =
      State.consume { s with buf := bs, env := env } e deliver

section Deliver

variable {P : Params} {s t u : State} {deliver : Byte → State → State} {b : Byte} {rest : List Byte}

theorem ParserRun.refl (P : Params) (s : State) : ParserRun P 0 0 s s where
  run := by rw [Nat.zero_sub]; exact .refl P s
  buf := List.drop_zero.symm

theorem ParserRun.trans {j k m n : Nat} (h : ParserRun P j m s t) (hk : ParserRun P k n t u) :
    ParserRun P (j + k) (m + n) s u where
  run := by
    have hcount : j + k + (m + n - s.buf.length) = j + (m - s.buf.length) + (k + (n - t.buf.length)) := by
      rw [h.buf, List.length_drop]
      omega
    rw [hcount]
    exact h.run.trans hk.run
  buf := by rw [hk.buf, h.buf, List.drop_drop]

/-- A step of PARSER that takes no byte. -/
theorem ParserRun.of_step (h : stepWith P s = .next t) (hbuf : t.buf = s.buf) : ParserRun P 1 0 s t where
  run := by rw [Nat.zero_sub]; exact .one h
  buf := hbuf

/-- A buffered byte is taken at once. -/
theorem stepWith_of_delivers {bs : List Byte} (hs : s.Unscheduled) (hd : Delivers P s deliver)
    (hbuf : s.buf = b :: bs) : stepWith P s = .next (deliver b s.take) := by
  obtain ⟨i, e, hi, hdec, hex⟩ := hd
  have hbyte : s.readByteOutcome = .byte b := State.readByteOutcome_byte.2 (by simp [hbuf])
  have hready : s.parserReady P = true := (State.parserReady_of_readsField hdec hi).2 (by simp [hbyte])
  rw [stepWith_of_parserReady hs hdec hready, hex s.buf s.env, State.consume, hbyte]

/-- The byte at the head of the stream is taken, after SOURCE has sent it where the buffer is empty. -/
theorem parserRun_of_delivers (hs : s.Unscheduled) (hroom : P.room 0 = true) (hd : Delivers P s deliver)
    (hdbuf : (deliver b (s.takeStream 1)).buf = (s.takeStream 1).buf) (hpend : s.pending = b :: rest) :
    ParserRun P 1 1 s (deliver b (s.takeStream 1)) where
  buf := hdbuf
  run := by
    cases hbuf : s.buf with
    | cons b' bs =>
      obtain rfl : b' = b := by
        rw [State.pending, hbuf] at hpend
        exact (List.cons.inj hpend).1
      have htake : s.takeStream 1 = s.take := by simp [State.takeStream, State.take, hbuf]
      rw [htake, List.length_cons, Nat.sub_eq_zero_of_le (Nat.le_add_left ..)]
      exact .one (stepWith_of_delivers hs hd hbuf)
    | nil =>
      have hopen : s.term = .opened := by
        by_contra hclosed
        rw [State.pending_of_closed hclosed, hbuf] at hpend
        cases hpend
      rw [State.pending_of_opened hopen, hbuf, List.nil_append] at hpend
      have hone : 1 ≤ (dataPrefix s.env.source).length := by simp [hpend]
      have hfull : (s.refill 1).buf = [b] := by simp [State.refill, hbuf, hpend]
      have hsrc : (s.refill 1).take = s.takeStream 1 := by
        simp [State.refill, State.take, State.takeStream, hbuf, hpend]
      obtain ⟨i, e, hi, hdec, hex⟩ := hd
      have hwait : ∀ bs e', bs.length < s.buf.length + 1 →
          State.parserReady P { s with buf := bs, env := e' } = false := by
        intro bs e' hbs
        obtain rfl : bs = [] := List.eq_nil_of_length_eq_zero (by simpa [hbuf] using hbs)
        rw [← Bool.not_eq_true, State.parserReady_of_readsField (s := { s with buf := [], env := e' }) hdec hi, not_not]
        exact State.readByteOutcome_wait.2 ⟨rfl, hopen⟩
      have hrefill : RunsTo P 1 s (s.refill 1) :=
        runsTo_refill hs hopen hone hwait fun n hn => by
          obtain rfl : n = 0 := by simpa [hbuf] using hn
          exact hroom
      have hstep := stepWith_of_delivers (P := P) (s := s.refill 1) ⟨hs.rstSeen, hs.turns⟩ ⟨i, e, hi, hdec, hex⟩ hfull
      rw [hsrc] at hstep
      exact hrefill.trans (.one hstep)

end Deliver

section IntField

variable {P : Params} {s : State} {fin : U32 → State → State} {w : Nat} {rest : List Byte}

/-- What an integer field is put into does not depend on the registers it was accumulated in, and is not the buffer. -/
structure IgnoresAccumulator (fin : U32 → State → State) : Prop where
  acc : ∀ (v : U32) (u : State) (a : U32) (c : U16),
    { fin v { u with acc := a, cnt := c } with acc := 0, cnt := 0 } = { fin v u with acc := 0, cnt := 0 }
  buf : ∀ (v : U32) (u : State), (fin v u).buf = u.buf

/-- The stream behind bytes that were taken. -/
theorem State.pending_takeStream_of_append {seg : List Byte} (hpend : s.pending = seg ++ rest) :
    (s.takeStream seg.length).pending = rest := by
  rw [State.pending_takeStream (by rw [hpend, List.length_append]; omega), hpend, List.drop_left]

/-- The bytes of an integer field are accumulated and handed over (R94, R151 to R153, R172). -/
theorem parserRun_intField (hs : s.Unscheduled) (hroom : P.room 0 = true)
    (hd : ∀ u : State, u.rstSeen = true → u.st = s.st → u.fld = s.fld → Delivers P u (State.deliverInt w fin))
    (hw : w ≤ 4) (hfin : IgnoresAccumulator fin) {seg : List Byte} (hseg : seg ≠ [])
    (hcnt : s.cnt.toNat + seg.length = w) (hpend : s.pending = seg ++ rest) :
    ParserRun P seg.length seg.length s
      { fin (s.acc * BitVec.ofNat 32 (256 ^ seg.length) + u32 seg) (s.takeStream seg.length) with
        acc := 0, cnt := 0 } := by
  induction seg generalizing s with
  | nil => exact absurd rfl hseg
  | cons b seg ih =>
    have hbyte := parserRun_of_delivers (b := b) (rest := seg ++ rest) hs hroom (hd s hs.rstSeen rfl rfl)
    obtain ⟨hlt, hmore⟩ | ⟨hle, hlast⟩ := State.deliverInt_cases w fin b (s.takeStream 1)
    · have hne : seg ≠ [] := by rintro rfl; simp at hcnt hlt; omega
      rw [hmore] at hbyte
      have hrest := State.pending_takeStream_of_append (seg := [b]) hpend
      have hsucc := toNat_succ_of_lt (x := s.cnt) (y := 4) (by simp at hlt ⊢; omega)
      have hih := ih (s := { s.takeStream 1 with acc := (s.takeStream 1).accWith b, cnt := (s.takeStream 1).cnt + 1 })
        ⟨hs.rstSeen, hs.turns⟩ hd hne (by simp at hcnt ⊢; omega) hrest
      have hval : s.accWith b * BitVec.ofNat 32 (256 ^ seg.length) + u32 seg =
          s.acc * BitVec.ofNat 32 (256 ^ (1 + seg.length)) + u32 (b :: seg) := by
        have hb := u32_append [b] seg
        rw [List.singleton_append] at hb
        rw [State.accWith_eq, hb, pow_add, BitVec.ofNat_mul, List.length_singleton, pow_one]
        ring
      rw [List.length_cons, Nat.add_comm, ← hval, ← hfin.acc _ _ (s.accWith b) (s.cnt + 1),
        ← State.takeStream_takeStream]
      exact (hbyte rfl hpend).trans hih
    · obtain rfl : seg = [] := List.eq_nil_of_length_eq_zero (by simp at hcnt hle; omega)
      rw [hlast] at hbyte
      have hval : s.accWith b = _ := s.accWith_eq b
      exact hval ▸ hbyte (hfin.buf _ _) hpend

end IntField

/-! ## A header and a record as their byte steps (R150, R170) -/

section Items

variable {P : Params} {s : State} {rest : List Byte}

theorem delivers_version (hr : s.rstSeen = true) (hst : s.st = .hdrDec) (hfld : s.fld = .version) :
    Delivers P s (State.deliverInt 2 fun v t => { t with ver := v.setWidth 16, fld := .deviceId }) :=
  ⟨.hdrVersion, _, .inl ⟨hst, .inl ⟨rfl, hfld⟩⟩, (decode_step_always (by decide)).2 (State.cw_eq_iff.2 ⟨hst, hfld⟩),
    fun bs env => State.guarded_of (s := { s with buf := bs, env := env }) hr ⟨hst, hfld⟩ _⟩

theorem delivers_deviceId (hr : s.rstSeen = true) (hst : s.st = .hdrDec) (hfld : s.fld = .deviceId) :
    Delivers P s (State.deliverInt 4 fun v t => { t with dev := v, fld := .payloadLen }) :=
  ⟨.hdrDeviceId, _, .inl ⟨hst, .inr (.inl ⟨rfl, hfld⟩)⟩,
    (decode_step_always (by decide)).2 (State.cw_eq_iff.2 ⟨hst, hfld⟩),
    fun bs env => State.guarded_of (s := { s with buf := bs, env := env }) hr ⟨hst, hfld⟩ _⟩

theorem delivers_payloadLen (hr : s.rstSeen = true) (hst : s.st = .hdrDec) (hfld : s.fld = .payloadLen) :
    Delivers P s (State.deliverInt 2 fun v t => { t with plen := v.setWidth 16, st := .awaitPay }) :=
  ⟨.hdrPayloadLen, _, .inl ⟨hst, .inr (.inr ⟨rfl, hfld⟩)⟩,
    (decode_step_always (by decide)).2 (State.cw_eq_iff.2 ⟨hst, hfld⟩),
    fun bs env => State.guarded_of (s := { s with buf := bs, env := env }) hr ⟨hst, hfld⟩ _⟩

theorem delivers_commandId (hr : s.rstSeen = true) (hst : s.st = .payDec) (hfld : s.fld = .commandId)
    (hri : s.ri.toNat < s.plen.toNat) :
    Delivers P s fun b t => { t with cid := b, fld := .length, acc := 0, cnt := 0 } :=
  ⟨.recCommandId, .malformedRecord s.ri .commandId, .inr ⟨hst, .inl ⟨rfl, hfld, hri⟩⟩,
    (decode_step_of_word (g := .riLtPlen) (by decide)).2 ⟨State.cw_eq_iff.2 ⟨hst, hfld⟩, decide_eq_true hri⟩,
    fun bs env => State.guarded_of (s := { s with buf := bs, env := env }) hr ⟨hst, hfld, hri⟩ _⟩

theorem delivers_length (hr : s.rstSeen = true) (hst : s.st = .payDec) (hfld : s.fld = .length) :
    Delivers P s (State.deliverInt 2 fun v t => { t with rlen := v.setWidth 16, fld := .data, dat := [] }) :=
  ⟨.recLength, .malformedRecord s.ri .length, .inr ⟨hst, .inr (.inl ⟨rfl, hfld⟩)⟩,
    (decode_step_always (by decide)).2 (State.cw_eq_iff.2 ⟨hst, hfld⟩),
    fun bs env => State.guarded_of (s := { s with buf := bs, env := env }) hr ⟨hst, hfld⟩ _⟩

theorem delivers_data (hr : s.rstSeen = true) (hst : s.st = .payDec) (hfld : s.fld = .data)
    (hcnt : s.cnt.toNat < s.rlen.toNat) : Delivers P s fun b t => { t with dat := t.dat ++ [b], cnt := t.cnt + 1 } :=
  ⟨.recData, .malformedRecord s.ri .data, .inr ⟨hst, .inr (.inr ⟨rfl, hfld, hcnt⟩)⟩,
    (decode_step_of_word (g := .cntLtRlen) (by decide)).2 ⟨State.cw_eq_iff.2 ⟨hst, hfld⟩, decide_eq_true hcnt⟩,
    fun bs env => State.guarded_of (s := { s with buf := bs, env := env }) hr ⟨hst, hfld, hcnt⟩ _⟩

/-- Two bytes of a 16-bit field push everything accumulated before them out (R94). -/
theorem setWidth_accumulated (a : U32) (v : U16) :
    (a * BitVec.ofNat 32 (256 ^ (u16Bytes v).length) + u32 (u16Bytes v)).setWidth 16 = v := by
  have hv := setWidth_u32 (u16Bytes v)
  rw [u16_u16Bytes] at hv
  have hzero : (BitVec.ofNat 32 (256 ^ (u16Bytes v).length)).setWidth 16 = 0 := by
    rw [u16Bytes_length]
    decide
  rw [BitVec.setWidth_add _ _ (by decide), BitVec.setWidth_mul _ _ (by decide), hzero, hv]
  simp

/-- Four bytes of a 32-bit field push everything accumulated before them out (R94). -/
theorem accumulated_u32 (a d : U32) : a * BitVec.ofNat 32 (256 ^ (u32Bytes d).length) + u32 (u32Bytes d) = d := by
  have hzero : BitVec.ofNat 32 (256 ^ (u32Bytes d).length) = 0 := by
    rw [u32Bytes_length]
    decide
  rw [hzero, u32_u32Bytes]
  simp

theorem parserRun_version {v : U16} (hs : s.Unscheduled) (hroom : P.room 0 = true) (hst : s.st = .hdrDec)
    (hfld : s.fld = .version) (hcnt : s.cnt = 0) (hpend : s.pending = u16Bytes v ++ rest) :
    ParserRun P 2 2 s { s.takeStream 2 with ver := v, fld := .deviceId, acc := 0, cnt := 0 } := by
  have hrun := parserRun_intField hs hroom
    (fun u hr hu hf => delivers_version hr (hu.trans hst) (hf.trans hfld)) (by decide)
    ⟨fun _ _ _ _ => rfl, fun _ _ => rfl⟩ (seg := u16Bytes v) nofun (by rw [hcnt]; rfl) hpend
  rwa [setWidth_accumulated] at hrun

theorem parserRun_deviceId {d : U32} (hs : s.Unscheduled) (hroom : P.room 0 = true) (hst : s.st = .hdrDec)
    (hfld : s.fld = .deviceId) (hcnt : s.cnt = 0) (hpend : s.pending = u32Bytes d ++ rest) :
    ParserRun P 4 4 s { s.takeStream 4 with dev := d, fld := .payloadLen, acc := 0, cnt := 0 } := by
  have hrun := parserRun_intField hs hroom
    (fun u hr hu hf => delivers_deviceId hr (hu.trans hst) (hf.trans hfld)) (by decide)
    ⟨fun _ _ _ _ => rfl, fun _ _ => rfl⟩ (seg := u32Bytes d) nofun (by rw [hcnt]; rfl) hpend
  rwa [accumulated_u32] at hrun

theorem parserRun_payloadLen {p : U16} (hs : s.Unscheduled) (hroom : P.room 0 = true) (hst : s.st = .hdrDec)
    (hfld : s.fld = .payloadLen) (hcnt : s.cnt = 0) (hpend : s.pending = u16Bytes p ++ rest) :
    ParserRun P 2 2 s { s.takeStream 2 with plen := p, st := .awaitPay, acc := 0, cnt := 0 } := by
  have hrun := parserRun_intField hs hroom
    (fun u hr hu hf => delivers_payloadLen hr (hu.trans hst) (hf.trans hfld)) (by decide)
    ⟨fun _ _ _ _ => rfl, fun _ _ => rfl⟩ (seg := u16Bytes p) nofun (by rw [hcnt]; rfl) hpend
  rwa [setWidth_accumulated] at hrun

theorem parserRun_length {l : U16} (hs : s.Unscheduled) (hroom : P.room 0 = true) (hst : s.st = .payDec)
    (hfld : s.fld = .length) (hcnt : s.cnt = 0) (hpend : s.pending = u16Bytes l ++ rest) :
    ParserRun P 2 2 s { s.takeStream 2 with rlen := l, fld := .data, dat := [], acc := 0, cnt := 0 } := by
  have hrun := parserRun_intField hs hroom
    (fun u hr hu hf => delivers_length hr (hu.trans hst) (hf.trans hfld)) (by decide)
    ⟨fun _ _ _ _ => rfl, fun _ _ => rfl⟩ (seg := u16Bytes l) nofun (by rw [hcnt]; rfl) hpend
  rwa [setWidth_accumulated] at hrun

/-- The header's bytes are taken field by field (R150, R162). -/
theorem parserRun_header {v : U16} {d : U32} {p : U16} (hs : s.Unscheduled) (hroom : P.room 0 = true)
    (hst : s.st = .hdrDec) (hfld : s.fld = .version) (hcnt : s.cnt = 0)
    (hpend : s.pending = wireBytes (.header v d p) ++ rest) :
    ParserRun P 8 8 s { s.takeStream 8 with
      ver := v, dev := d, plen := p, st := .awaitPay, fld := .payloadLen, acc := 0, cnt := 0 } := by
  rw [wireBytes, List.append_assoc, List.append_assoc] at hpend
  have hpend2 := State.pending_takeStream_of_append hpend
  have hpend6 := State.pending_takeStream_of_append hpend2
  have hsplit : s.takeStream 8 = ((s.takeStream 2).takeStream 4).takeStream 2 := by
    rw [State.takeStream_takeStream, State.takeStream_takeStream]
  rw [hsplit]
  have hver := parserRun_version hs hroom hst hfld hcnt hpend
  have hdev := parserRun_deviceId (s := { s.takeStream 2 with ver := v, fld := .deviceId, acc := 0, cnt := 0 })
    ⟨hs.rstSeen, hs.turns⟩ hroom hst rfl rfl hpend2
  exact (hver.trans hdev).trans (parserRun_payloadLen ⟨hs.rstSeen, hs.turns⟩ hroom hst rfl rfl hpend6)

/-- The data bytes are copied (R173). -/
theorem parserRun_data {d : List Byte} (hs : s.Unscheduled) (hroom : P.room 0 = true) (hst : s.st = .payDec)
    (hfld : s.fld = .data) (hcnt : s.cnt.toNat + d.length = s.rlen.toNat) (hpend : s.pending = d ++ rest) :
    ParserRun P d.length d.length s { s.takeStream d.length with dat := s.dat ++ d, cnt := s.rlen } := by
  induction d generalizing s with
  | nil =>
    have hfull : s.rlen = s.cnt := BitVec.eq_of_toNat_eq hcnt.symm
    rw [List.length_nil, State.takeStream_zero, List.append_nil, hfull]
    exact .refl P s
  | cons b d ih =>
    have hlt : s.cnt.toNat < s.rlen.toNat := by rw [List.length_cons] at hcnt; omega
    have hbyte := parserRun_of_delivers hs hroom (delivers_data (P := P) hs.rstSeen hst hfld hlt) rfl hpend
    have hrest := State.pending_takeStream_of_append (seg := [b]) hpend
    have hcnt' : (s.cnt + 1).toNat + d.length = s.rlen.toNat := by
      rw [toNat_succ_of_lt hlt, ← hcnt, List.length_cons]
      omega
    rw [List.length_cons, Nat.add_comm, ← State.takeStream_takeStream, List.append_cons]
    exact hbyte.trans
      (ih (s := { s.takeStream 1 with dat := s.dat ++ [b], cnt := s.cnt + 1 }) ⟨hs.rstSeen, hs.turns⟩ hst hfld hcnt'
        hrest)

/-- A complete record that the store holds is committed (R174). -/
theorem stepWith_commit (hs : s.Unscheduled) (hst : s.st = .payDec) (hfld : s.fld = .data) (hcnt : s.cnt = s.rlen)
    (hfits : P.fits s.recs.length s.rlen = true) : stepWith P s = .next (s.commit ⟨s.cid, s.rlen, s.dat⟩) := by
  have hd : decode s.parserWord = .ok .recCommit [] :=
    (decode_step_of_word (g := .cntEqRlen) (by decide)).2 ⟨State.cw_eq_iff.2 ⟨hst, hfld⟩, beq_iff_eq.2 hcnt⟩
  have hready : s.parserReady P = true := by simp only [State.parserReady, hd]
  rw [stepWith_of_parserReady hs hd hready, execWith_recCommit hs.rstSeen ⟨hst, hfld, hcnt⟩]
  exact if_pos hfits

/-- A record's bytes are taken field by field, and it is committed (R170, R181). -/
theorem parserRun_record {r : Record} (hs : s.Unscheduled) (hroom : P.room 0 = true) (hst : s.st = .payDec)
    (hfld : s.fld = .commandId) (hri : s.ri.toNat < s.plen.toNat) (hr : r.wf = true)
    (hfits : P.fits s.recs.length r.length = true) (hpend : s.pending = encRecord r ++ rest) :
    ParserRun P (1 + 2 + r.length.toNat + 1) (encRecord r).length s (s.takeRecord r) := by
  obtain ⟨c, l, d⟩ := r
  have hlen : d.length = l.toNat := Record.wf_iff.1 hr
  have hbytes : s.pending = [c] ++ (u16Bytes l ++ (d ++ rest)) := by
    rw [hpend, encRecord, wireBytes]
    simp
  have hpend1 := State.pending_takeStream_of_append hbytes
  have hpend3 := State.pending_takeStream_of_append hpend1
  have hsplit : s.takeStream (encRecord ⟨c, l, d⟩).length = ((s.takeStream 1).takeStream 2).takeStream d.length := by
    rw [State.takeStream_takeStream, State.takeStream_takeStream, encRecord_length, ← Nat.add_assoc]
  rw [State.takeRecord, hsplit, encRecord_length, ← hlen]
  have hcid := parserRun_of_delivers hs hroom (delivers_commandId (P := P) hs.rstSeen hst hfld hri) rfl hbytes
  have hrlen := parserRun_length (s := { s.takeStream 1 with cid := c, fld := .length, acc := 0, cnt := 0 })
    ⟨hs.rstSeen, hs.turns⟩ hroom hst rfl rfl hpend1
  have hdat := parserRun_data (s := { (s.takeStream 1).takeStream 2 with
      cid := c, rlen := l, fld := .data, dat := [], acc := 0, cnt := 0 })
    ⟨hs.rstSeen, hs.turns⟩ hroom hst rfl ((Nat.zero_add _).trans hlen) hpend3
  exact ((hcid.trans hrlen).trans hdat).trans (.of_step (stepWith_commit ⟨hs.rstSeen, hs.turns⟩ hst rfl rfl hfits) rfl)

end Items

/-! ## The whole frame (R113, R197, R201) -/

section FrameRun

variable {P : Params} {s : State} {rest : List Byte}

/-- A buffer that meets R6 has room for a byte when it is empty. -/
theorem room_zero_of_legal (hP : P.Legal) : P.room 0 = true := by
  rw [Params.room_eq_holds]
  exact Params.holds_mono (by decide) hP.holds_header

/-- The records owed are taken one after another; the registers under construction keep what the last one left. -/
theorem parserRun_records (hP : P.Legal) {rs : List Record} (hs : s.Unscheduled)
    (hst : s.st = .payDec) (hfld : s.fld = .commandId) (hri : s.ri.toNat + rs.length = s.plen.toNat)
    (hrecs : s.recs.length = s.ri.toNat) (hwf : rs.all Record.wf = true)
    (hpend : s.pending = rs.flatMap encRecord ++ rest) :
    ∃ c l n a d, ParserRun P (rs.map fun r => 1 + 2 + r.length.toNat + 1).sum (rs.flatMap encRecord).length s
      { s.takeStream (rs.flatMap encRecord).length with
        recs := s.recs ++ rs, ri := s.plen, cid := c, rlen := l, cnt := n, acc := a, dat := d } := by
  induction rs generalizing s with
  | nil =>
    have hdone : s.plen = s.ri := BitVec.eq_of_toNat_eq hri.symm
    refine ⟨s.cid, s.rlen, s.cnt, s.acc, s.dat, ?_⟩
    rw [List.flatMap_nil, List.length_nil, State.takeStream_zero, List.append_nil, hdone]
    exact .refl P s
  | cons r rs ih =>
    rw [List.all_cons, Bool.and_eq_true] at hwf
    obtain ⟨hr, hwf⟩ := hwf
    rw [List.flatMap_cons, List.append_assoc] at hpend
    rw [List.length_cons] at hri
    have hlt : s.ri.toNat < s.plen.toNat := by omega
    have hplen := s.plen.isLt
    have hfits : P.fits s.recs.length r.length = true := hP.fits (by omega) _
    have hrec := parserRun_record hs (room_zero_of_legal hP) hst hfld hlt hr hfits hpend
    have hsucc := toNat_succ_of_lt hlt
    obtain ⟨c, l, n, a, d, hrun⟩ := ih (s := s.takeRecord r) ⟨hs.rstSeen, hs.turns⟩ hst rfl
      (by change (s.ri + 1).toNat + rs.length = s.plen.toNat; omega)
      (by change (s.recs ++ [r]).length = (s.ri + 1).toNat; rw [List.length_append, hsucc, hrecs]; rfl) hwf
      (State.pending_takeStream_of_append hpend)
    refine ⟨c, l, n, a, d, ?_⟩
    rw [List.flatMap_cons, List.length_append, ← State.takeStream_takeStream, List.append_cons, List.map_cons,
      List.sum_cons]
    have hkeep : { (s.takeRecord r).takeStream (rs.flatMap encRecord).length with
          recs := s.recs ++ [r] ++ rs, ri := s.plen, cid := c, rlen := l, cnt := n, acc := a, dat := d } =
        { (s.takeStream (encRecord r).length).takeStream (rs.flatMap encRecord).length with
          recs := s.recs ++ [r] ++ rs, ri := s.plen, cid := c, rlen := l, cnt := n, acc := a, dat := d } := by
      simp [State.takeRecord, State.commit, State.takeStream, hfld]
    exact hkeep ▸ hrec.trans hrun

/-- A checkpoint waits while SOURCE sends what it asks for, and proceeds (R134, R135). -/
theorem runsTo_checkpoint {i : Instr} {n : Nat} {wrap : Cause → Err} {proceed : State → State} (hs : s.Unscheduled)
    (hopen : s.term = .opened) (hd : decode s.parserWord = .ok i [])
    (hready : ∀ bs e, State.parserReady P { s with buf := bs, env := e } =
      (State.peekOutcome { s with buf := bs, env := e } n != .wait))
    (hex : ∀ bs e, execWith P i { s with buf := bs, env := e } =
      State.checkpoint { s with buf := bs, env := e } n wrap proceed)
    (hholds : P.holds n = true) (hle : n ≤ s.pending.length) :
    RunsTo P (1 + (n - s.buf.length)) s (proceed (s.refill (n - s.buf.length))) := by
  rw [State.pending_of_opened hopen, List.length_append] at hle
  have hk : n - s.buf.length ≤ (dataPrefix s.env.source).length := by omega
  have hrefill : RunsTo P (n - s.buf.length) s (s.refill (n - s.buf.length)) := by
    obtain hfull | hshort := Nat.le_total n s.buf.length
    · rw [Nat.sub_eq_zero_of_le hfull, State.refill_zero]
      exact .refl P s
    · have hn : s.buf.length + (n - s.buf.length) = n := Nat.add_sub_cancel' hshort
      refine runsTo_refill hs hopen hk (fun bs e hbs => ?_) fun m hm => ?_
      · rw [hn] at hbs
        have hpeek : State.peekOutcome { s with buf := bs, env := e } n = .wait := State.peekOutcome_wait.2 ⟨hbs, hopen⟩
        rw [hready, hpeek]
        rfl
      · rw [Params.room_eq_holds]
        exact Params.holds_mono (by omega) hholds
  have hpeek : (s.refill (n - s.buf.length)).peekOutcome n = .ok :=
    State.peekOutcome_ok.2 (by rw [State.refill_buf_length hk]; omega)
  have hpar : (s.refill (n - s.buf.length)).parserReady P = true := by
    refine (hready _ _).trans ?_
    rw [bne_iff_ne]
    exact fun h => nomatch hpeek.symm.trans h
  have hstep : stepWith P (s.refill (n - s.buf.length)) = .next (proceed (s.refill (n - s.buf.length))) := by
    rw [stepWith_of_parserReady (s := s.refill _) ⟨hs.rstSeen, hs.turns⟩ hd hpar]
    refine (hex _ _).trans ?_
    change (s.refill (n - s.buf.length)).checkpoint n wrap proceed = _
    rw [State.checkpoint, hpeek]
  rw [Nat.add_comm]
  exact hrefill.trans (.one hstep)

theorem decode_parserWord_of_awaitHdr (hst : s.st = .awaitHdr) : decode s.parserWord = .ok .peekHdr [] := by
  refine (decode_step_of_state (bits := 0x08#6) (by decide)).2 ?_
  rw [State.cw, hst]
  cases s.fld <;> rfl

theorem decode_parserWord_of_awaitPay (hst : s.st = .awaitPay) : decode s.parserWord = .ok .peekPay [] := by
  refine (decode_step_of_state (bits := 0x18#6) (by decide)).2 ?_
  rw [State.cw, hst]
  cases s.fld <;> rfl

/-- The header checkpoint, once SOURCE has sent a header's bytes (R134). -/
theorem runsTo_peekHdr (hP : P.Legal) (hs : s.Unscheduled) (hst : s.st = .awaitHdr) (hopen : s.term = .opened)
    (hle : 8 ≤ s.pending.length) :
    RunsTo P (1 + (8 - s.buf.length)) s
      { s.refill (8 - s.buf.length) with st := .hdrDec, fld := .version, cnt := 0, acc := 0 } := by
  have hd := decode_parserWord_of_awaitHdr hst
  refine runsTo_checkpoint (wrap := .headerFormatError)
    (proceed := fun t => { t with st := .hdrDec, fld := .version, cnt := 0, acc := 0 }) hs hopen hd
    (fun bs e => ?_) (fun bs e => ?_) hP.holds_header hle
  · have hd' : decode (State.parserWord { s with buf := bs, env := e }) = .ok .peekHdr [] := hd
    simp only [State.parserReady, hd', headerBytes_eq]
  · exact State.guarded_of (s := { s with buf := bs, env := e }) hs.rstSeen hst _

/-- The payload checkpoint, once SOURCE has sent the bytes it asks for (R135). -/
theorem runsTo_peekPay (hP : P.Legal) (hs : s.Unscheduled) (hst : s.st = .awaitPay) (hopen : s.term = .opened)
    (hle : P.paywin s.plen ≤ s.pending.length) :
    RunsTo P (1 + (P.paywin s.plen - s.buf.length)) s
      { s.refill (P.paywin s.plen - s.buf.length) with
        st := .payDec, fld := .commandId, cnt := 0, acc := 0, ri := 0 } := by
  have hd := decode_parserWord_of_awaitPay hst
  refine runsTo_checkpoint (wrap := .dataLengthError)
    (proceed := fun t => { t with st := .payDec, fld := .commandId, cnt := 0, acc := 0, ri := 0 }) hs hopen hd
    (fun bs e => ?_) (fun bs e => ?_) (hP.holds_paywin s.plen) hle
  · have hd' : decode (State.parserWord { s with buf := bs, env := e }) = .ok .peekPay [] := hd
    simp only [State.parserReady, hd']
  · exact State.guarded_of (s := { s with buf := bs, env := e }) hs.rstSeen hst _

/-- The frame is published (R192). -/
theorem stepWith_assemble (hs : s.Unscheduled) (hst : s.st = .payDec) (hfld : s.fld = .commandId)
    (hri : s.ri = s.plen) : stepWith P s = .next { s with st := .done } := by
  have hd : decode s.parserWord = .ok .assemble [] :=
    (decode_step_of_word (g := .riEqPlen) (by decide)).2 ⟨State.cw_eq_iff.2 ⟨hst, hfld⟩, beq_iff_eq.2 hri⟩
  have hready : s.parserReady P = true := by simp only [State.parserReady, hd]
  rw [stepWith_of_parserReady hs hd hready]
  exact State.guarded_of hs.rstSeen ⟨hst, hfld, hri⟩ _

/-- SOURCE's beats that hold bytes are those bytes of the stream. -/
theorem dataPrefix_map_append (bs : List Byte) (more : List Beat) :
    dataPrefix (bs.map (fun b => ⟨0, b⟩) ++ more) = bs ++ dataPrefix more := by
  induction bs with
  | nil => rfl
  | cons b bs ih =>
    rw [List.map_cons, List.cons_append, dataPrefix_cons_data rfl, ih]
    rfl

/-- A header behind an empty buffer: its checkpoint, and its bytes (R134, R150). -/
theorem runsTo_header (hP : P.Legal) {v : U16} {d : U32} {p : U16} (hs : s.Unscheduled) (hst : s.st = .awaitHdr)
    (hopen : s.term = .opened) (hbuf : s.buf = []) (hpend : s.pending = wireBytes (.header v d p) ++ rest) :
    RunsTo P (1 + 8 + 8) s { s.takeStream 8 with
      ver := v, dev := d, plen := p, st := .awaitPay, fld := .payloadLen, acc := 0, cnt := 0 } := by
  have hle : 8 ≤ s.pending.length := by rw [hpend, List.length_append, wireBytes_header_length]; omega
  have hk : 8 ≤ (dataPrefix s.env.source).length := by rwa [State.pending_of_opened hopen, hbuf] at hle
  have hpeek := runsTo_peekHdr hP hs hst hopen hle
  rw [hbuf, List.length_nil, Nat.sub_zero] at hpeek
  have hfull : (s.refill 8).buf.length = 8 := by rw [State.refill_buf_length hk, hbuf]; rfl
  have hfields := (parserRun_header (P := P)
    (s := { s.refill 8 with st := .hdrDec, fld := .version, cnt := 0, acc := 0 }) ⟨hs.rstSeen, hs.turns⟩
    (room_zero_of_legal hP) rfl rfl rfl ((State.pending_refill hopen hk).trans hpend)).run
  have hcount : 1 + 8 + 8 = 1 + 8 + (8 + (8 - (s.refill 8).buf.length)) := by rw [hfull]
  rw [hcount, ← State.takeStream_refill hk (by rw [hbuf]; rfl)]
  exact hpeek.trans hfields

/-- The records of a payload behind an empty buffer: their checkpoint, and their bytes (R135, R170). -/
theorem runsTo_payload (hP : P.Legal) {rs : List Record} (hs : s.Unscheduled) (hst : s.st = .awaitPay)
    (hopen : s.term = .opened) (hbuf : s.buf = []) (hrecs : s.recs = []) (hlen : rs.length = s.plen.toNat)
    (hwf : rs.all Record.wf = true) (hwin : P.paywin s.plen ≤ (rs.flatMap encRecord).length)
    (hpend : s.pending = rs.flatMap encRecord ++ rest) :
    ∃ c l n a d,
      RunsTo P (1 + (rs.map fun r => 1 + 2 + r.length.toNat + 1).sum + (rs.flatMap encRecord).length) s
        { s.takeStream (rs.flatMap encRecord).length with
          st := .payDec, fld := .commandId, recs := s.recs ++ rs, ri := s.plen,
          cid := c, rlen := l, cnt := n, acc := a, dat := d } := by
  have hle : P.paywin s.plen ≤ s.pending.length := by rw [hpend, List.length_append]; omega
  have hk : P.paywin s.plen ≤ (dataPrefix s.env.source).length := by rwa [State.pending_of_opened hopen, hbuf] at hle
  have hpeek := runsTo_peekPay hP hs hst hopen hle
  rw [hbuf, List.length_nil, Nat.sub_zero] at hpeek
  have hfull : (s.refill (P.paywin s.plen)).buf.length = P.paywin s.plen := by
    rw [State.refill_buf_length hk, hbuf, List.length_nil, Nat.zero_add]
  obtain ⟨c, l, n, a, d, hrun⟩ := parserRun_records hP
    (s := { s.refill (P.paywin s.plen) with st := .payDec, fld := .commandId, cnt := 0, acc := 0, ri := 0 })
    ⟨hs.rstSeen, hs.turns⟩ rfl rfl ((Nat.zero_add _).trans hlen) (congrArg List.length hrecs) hwf
    ((State.pending_refill hopen hk).trans hpend)
  refine ⟨c, l, n, a, d, ?_⟩
  have hcount : ∀ m, 1 + m + (rs.flatMap encRecord).length =
      1 + P.paywin s.plen + (m + ((rs.flatMap encRecord).length - (s.refill (P.paywin s.plen)).buf.length)) := by
    intro m
    rw [hfull]
    omega
  rw [hcount, ← State.takeStream_refill hk (by rw [hbuf, List.length_nil, Nat.zero_add]; exact hwin)]
  exact hpeek.trans hrun.run

/-- A frame's encoding at the head of the stream is decoded to that frame in the steps of R201 and one of SOURCE for each
byte. -/
theorem runsTo_frame (hP : P.Legal) {f : Frame} (hf : f.wf = true) (hs : s.Unscheduled) (hst : s.st = .awaitHdr)
    (hrecs : s.recs = []) (hopen : s.term = .opened) (hbuf : s.buf = []) (hpend : s.pending = encFrame f ++ rest) :
    ∃ t, RunsTo P (stepCount f + (encFrame f).length) s t ∧ t.result = some (.ok f) ∧
      t.pos = s.pos + (encFrame f).length ∧ t.buf = [] ∧ t.env.source = s.env.source.drop (encFrame f).length := by
  have hwin := paywin_le_records_length hP hf
  obtain ⟨⟨v, d, p⟩, rs⟩ := f
  obtain ⟨hlen, hwf⟩ := Frame.wf_iff.1 hf
  rw [encFrame_mk, List.append_assoc] at hpend
  have hheader := runsTo_header hP hs hst hopen hbuf hpend
  have hrest : (s.takeStream 8).pending = rs.flatMap encRecord ++ rest := State.pending_takeStream_of_append hpend
  obtain ⟨c, l, n, a, dat, hpayload⟩ := runsTo_payload hP
    (s := { s.takeStream 8 with
      ver := v, dev := d, plen := p, st := .awaitPay, fld := .payloadLen, acc := 0, cnt := 0 })
    ⟨hs.rstSeen, hs.turns⟩ rfl hopen (by simp [hbuf]) hrecs hlen hwf hwin hrest
  have hrun := (hheader.trans hpayload).trans (.one (stepWith_assemble ⟨hs.rstSeen, hs.turns⟩ rfl rfl rfl))
  have hbytes : (encFrame ⟨⟨v, d, p⟩, rs⟩).length = 8 + (rs.flatMap encRecord).length := by
    rw [encFrame_mk, List.length_append, wireBytes_header_length]
  have hcount : stepCount ⟨⟨v, d, p⟩, rs⟩ + (encFrame ⟨⟨v, d, p⟩, rs⟩).length =
      1 + 8 + 8 + (1 + (rs.map fun r => 1 + 2 + r.length.toNat + 1).sum + (rs.flatMap encRecord).length) + 1 := by
    rw [hbytes]
    change 1 + 8 + 1 + (rs.map fun r => 1 + 2 + r.length.toNat + 1).sum + 1 + _ = _
    omega
  refine ⟨_, hcount ▸ hrun, ?_, ?_, ?_, ?_⟩
  · simp [State.result, hs.rstSeen, hrecs]
  · simp [hbytes, Nat.add_assoc]
  · simp [hbuf]
  · simp [hbytes, hbuf, List.drop_drop]

end FrameRun

/-- Settles O60: `runsTo_frame`, at these parameters and at this hardware's, behind the beats that hold the encoding. -/
theorem decodeRunsToItsFrame : Obligations.DecodeRunsToItsFrame := by
  unfold Obligations.DecodeRunsToItsFrame
  intro s f more hf hr hst hrecs hopen hbuf hturns hsrc
  have hpend : s.pending = encFrame f ++ dataPrefix more := by
    rw [State.pending_of_opened hopen, hbuf, hsrc, dataPrefix_map_append, List.nil_append]
  have hdrop : s.env.source.drop (encFrame f).length = more := by
    rw [hsrc, List.drop_left' (List.length_map _)]
  have hrun : ∀ P : Params, P.Legal →
      ∃ t, RunsTo P (stepCount f + (encFrame f).length) s t ∧
        t.result = some (.ok f) ∧ t.pos = s.pos + (encFrame f).length ∧ t.buf = [] ∧ t.env.source = more := fun P hP =>
    hdrop ▸ runsTo_frame hP hf ⟨hr, hturns⟩ hst hrecs hopen hbuf hpend
  refine ⟨?_, hrun⟩
  rw [run_core_eq]
  exact hrun Config.hardware hardware_legal

end Sys2Proof.Machine

end

/-! # The reader: SOURCE's beats, the two checkpoints, whole items as byte steps (40_stream_reader)

PROOFS of the statements about acceptance and effect of the beats (R130 to R133), the outcomes of the checkpoints (R134,
R135), and HEADER and RECORD as the byte steps that the consuming template takes (R137, log 5). -/

section

namespace Sys2Proof.Machine

open Sys2Proof

/-! ## SOURCE's beats -/

/-- A buffer has room exactly when it is below `BUFCAP`, if there is one (R130). -/
theorem Params.room_iff {P : Params} {n : Nat} : P.room n = true ↔ ∀ c, P.bufcap = some c → n < c := by
  cases hP : P.bufcap <;> simp [Params.room, hP]

section Beats

variable {P : Params} {s : State}

/-- SRC.DATA appends on an open stream with room, and nothing happens otherwise (R130, R133). -/
theorem execWith_srcData_outcomes (P : Params) (hr : s.rstSeen = true) (b : Byte) :
    (s.term = .opened ∧ P.room s.buf.length = true → execWith P (.srcData b) s = .next (s.push b)) ∧
    (¬ (s.term = .opened ∧ P.room s.buf.length = true) → execWith P (.srcData b) s = .next s) :=
  ⟨fun h => State.guarded_of hr h _, fun h => State.guarded_not hr h _⟩

/-- A cause code of `IOCODE_W` bits is kept (R132). -/
theorem Params.code_of_lt {c : IoCode} (h : c.toNat < 2 ^ P.iocodeW) : P.code c = c :=
  BitVec.eq_of_toNat_eq (by rw [Params.code_toNat, Nat.mod_eq_of_lt h])

/-- SRC.EOS and SRC.ERR close an open stream, and nothing happens on a closed one (R131, R132, R133). -/
theorem execWith_terminator_outcomes (P : Params) (hr : s.rstSeen = true) (c : IoCode) :
    (s.term = .opened → execWith P .srcEos s = .next (s.close .eos)) ∧
    (s.term = .opened → c.toNat < 2 ^ P.iocodeW → execWith P (.srcErr c) s = .next (s.close (.ioErr c))) ∧
    (s.term ≠ .opened → execWith P .srcEos s = .next s ∧ execWith P (.srcErr c) s = .next s) := by
  refine ⟨fun hopen => State.guarded_of hr hopen _, fun hopen hc => ?kept,
    fun hclosed => ⟨State.guarded_not hr hclosed _, State.guarded_not hr hclosed _⟩⟩
  case kept =>
    have hclose : execWith P (.srcErr c) s = .next (s.close (.ioErr (P.code c))) := State.guarded_of hr hopen _
    rwa [Params.code_of_lt hc] at hclose

/-- A beat offered while `in_ready` is 0 changes nothing, by its kind (R133). -/
theorem execWith_of_not_inReady {k : BitVec 2} {d : Byte} {i : Instr} {rest : List Byte} (hr : s.rstSeen = true)
    (hready : s.inReady P k = false) (hd : decode (.beat k d) = .ok i rest) : execWith P i s = .next s := by
  have hkinds : ∀ k : BitVec 2, k = 0 ∨ k = 1 ∨ k = 2 ∨ k = 3 := by decide
  rw [← Bool.not_eq_true, State.inReady_iff] at hready
  obtain rfl | rfl | rfl | rfl := hkinds k <;> cases hd
  · exact State.guarded_not hr (fun ⟨hopen, hroom⟩ => hready ⟨hopen, by decide, .inr hroom⟩) _
  · exact State.guarded_not hr (fun hopen => hready ⟨hopen, by decide, .inl (by decide)⟩) _
  · exact State.guarded_not hr (fun hopen => hready ⟨hopen, by decide, .inl (by decide)⟩) _
  · exact State.whenReset_of hr _

/-- Every operation of SOURCE is that of some beat (R105). -/
theorem exists_beat_of_format {i : Instr} (hi : instrFormat i = .beat) : ∃ k d, decode (.beat k d) = .ok i [] := by
  cases i with
  | srcData b => exact ⟨0, b, rfl⟩
  | srcEos => exact ⟨1, 0, rfl⟩
  | srcErr c => exact ⟨2, c, rfl⟩
  | srcReserved => exact ⟨3, 0, rfl⟩
  | _ => cases hi

end Beats

/-- Settles O15: `State.inReady_iff` with the room spelled out, and `execWith_of_not_inReady`. -/
theorem acceptanceOfBeats : Obligations.AcceptanceOfBeats := by
  unfold Obligations.AcceptanceOfBeats
  refine fun s k d => ⟨?ready, rfl, fun hr => State.whenReset_of hr _, fun i rest hr hready hd => ?held,
    fun P => ⟨?readyWith, fun i rest => execWith_of_not_inReady⟩⟩
  case ready => rw [State.inReady_iff, hardware_room, decide_eq_true_iff]
  case held =>
    rw [exec_eq_execWith]
    exact execWith_of_not_inReady hr hready hd
  case readyWith => rw [State.inReady_iff, Params.room_iff]

/-- Settles O41: a beat is held, appends its byte, or closes the stream (`execWith_beat_next`). -/
theorem sourceOperationsFrame : Obligations.SourceOperationsFrame := by
  unfold Obligations.SourceOperationsFrame
  intro i s t hi h
  obtain ⟨k, d, hd⟩ := exists_beat_of_format hi
  rw [exec_eq_execWith] at h
  obtain ⟨-, rfl⟩ | ⟨-, -, ⟨-, rfl⟩ | ⟨-, rfl⟩ | ⟨-, rfl⟩⟩ := execWith_beat_next hd h
  · exact ⟨rfl, [], (List.append_nil _).symm, Nat.zero_le 1⟩
  · exact ⟨rfl, [d], rfl, le_rfl⟩
  · exact ⟨rfl, [], (List.append_nil _).symm, Nat.zero_le 1⟩
  · exact ⟨rfl, [], (List.append_nil _).symm, Nat.zero_le 1⟩

/-- Settles O13: `execWith_srcData_outcomes` with the room spelled out. -/
theorem srcDataAppends : Obligations.SrcDataAppends := by
  unfold Obligations.SrcDataAppends
  intro s b hr
  simp only [exec_eq_execWith]
  obtain ⟨happend, hheld⟩ := execWith_srcData_outcomes Config.hardware hr b
  rw [hardware_room, decide_eq_true_iff] at happend hheld
  refine ⟨rfl, fun hopen hlt => happend ⟨hopen, hlt⟩, fun hclosed => hheld fun ⟨hopen, _⟩ => hclosed hopen,
    fun hfull => hheld fun ⟨_, hlt⟩ => hlt.not_ge hfull, fun P => ?_⟩
  obtain ⟨happend, hheld⟩ := execWith_srcData_outcomes P hr b
  rw [Params.room_iff] at happend hheld
  exact ⟨fun hopen hlt => happend ⟨hopen, hlt⟩, fun hclosed => hheld fun ⟨hopen, _⟩ => hclosed hopen,
    fun c hc hfull => hheld fun ⟨_, hlt⟩ => (hlt c hc).not_ge hfull⟩

/-- STATUS.TERM shows the terminator (R35). -/
theorem State.statusImage_term (s : State) : s.statusImage.extractLsb' 6 2 = s.term.code := by
  obtain ⟨-, -, -, -, hterm, -⟩ := s.statusImage_fields
  exact hterm

/-- Settles O14: `execWith_terminator_outcomes`, here with a code of 8 bits, and `State.statusImage_term`. -/
theorem terminatorBeatsClose : Obligations.TerminatorBeatsClose := by
  unfold Obligations.TerminatorBeatsClose
  intro s d c hr
  simp only [exec_eq_execWith]
  obtain ⟨heos, herr, hclosed⟩ := execWith_terminator_outcomes Config.hardware hr c
  exact ⟨rfl, rfl, heos, fun hopen => herr hopen c.isLt, hclosed, State.statusImage_term _, State.statusImage_term _,
    fun P => execWith_terminator_outcomes P hr c⟩

/-! ## The two checkpoints -/

/-- A checkpoint in each outcome of its peek (R64, R134, R135). -/
theorem State.checkpoint_outcomes (s : State) (n : Nat) (wrap : Cause → Err) (proceed : State → State) :
    (n ≤ s.buf.length → s.checkpoint n wrap proceed = .next (proceed s)) ∧
    (s.buf.length < n → s.term = .eos → s.checkpoint n wrap proceed = .next (s.fail (wrap .endOfStream))) ∧
    (∀ c, s.buf.length < n → s.term = .ioErr c →
      s.checkpoint n wrap proceed = .next (s.fail (wrap (.ioError c)))) ∧
    (s.buf.length < n → s.term = .opened → s.checkpoint n wrap proceed = .next s) := by
  unfold State.checkpoint
  refine ⟨fun h => ?ok, fun h ht => ?eos, fun c h ht => ?ioErr, fun h ht => ?wait⟩
  case ok => rw [State.peekOutcome_ok.2 h]
  case eos => rw [State.peekOutcome_endOfStream.2 ⟨h, ht⟩]
  case ioErr => rw [State.peekOutcome_ioError.2 ⟨h, ht⟩]
  case wait => rw [State.peekOutcome_wait.2 ⟨h, ht⟩]

/-- Settles O17: PEEK.HDR is the checkpoint for 8 bytes. -/
theorem peekHdrOutcomes : Obligations.PeekHdrOutcomes := by
  unfold Obligations.PeekHdrOutcomes
  intro s hr hst
  rw [exec, execPeekHdr, State.guarded_of hr hst]
  exact ⟨decode_parserWord_of_awaitHdr hst, s.checkpoint_outcomes 8 _ _⟩

/-- Settles O18: PEEK.PAY is the checkpoint for `PAYWIN(PLEN)` bytes; `paywin_le_iff` says when this hardware has them. -/
theorem peekPayOutcomes : Obligations.PeekPayOutcomes := by
  unfold Obligations.PeekPayOutcomes
  intro s hr hst
  have hpeek : ∀ P : Params, execWith P .peekPay s = s.checkpoint (P.paywin s.plen) .dataLengthError fun t =>
      { t with st := .payDec, fld := .commandId, cnt := 0, acc := 0, ri := 0 } := fun P => State.guarded_of hr hst _
  have hshort : s.plen ≠ 0 → s.buf = [] → s.buf.length < Config.hardware.paywin s.plen := fun hp hb =>
    not_le.1 fun hle => ((paywin_le_iff _ _).1 hle).elim hp (· hb)
  rw [exec_eq_execWith, hpeek]
  obtain ⟨hok, heos, herr, hwait⟩ := s.checkpoint_outcomes (Config.hardware.paywin s.plen) .dataLengthError fun t =>
      { t with st := .payDec, fld := .commandId, cnt := 0, acc := 0, ri := 0 }
  refine ⟨decode_parserWord_of_awaitPay hst, fun h => hok ((paywin_le_iff _ _).2 h), fun hp hb => heos (hshort hp hb),
    fun c hp hb => herr c (hshort hp hb), fun hp hb => hwait (hshort hp hb), fun P => ?_⟩
  rw [hpeek]
  exact s.checkpoint_outcomes (P.paywin s.plen) _ _

/-! ## Whole items as their byte steps (R137, log 5) -/

/-- Settles O30: `parserRun_header` at this hardware's parameters ends where HEADER does. -/
theorem headerIsItsByteSteps : Obligations.HeaderIsItsByteSteps := by
  unfold Obligations.HeaderIsItsByteSteps
  intro s v d p hr hst hfld hcnt hturns hprefix
  obtain ⟨tail, htail⟩ := List.isPrefixOf_iff_prefix.1 hprefix
  rw [run_core_eq, exec, execHeader, State.wireItem_of hr ⟨hst, hfld, hcnt⟩ htail.symm, wireBytes_header_length]
  exact (parserRun_header ⟨hr, hturns⟩ rfl hst hfld hcnt htail.symm).run

/-- Settles O31: `parserRun_record` at this hardware's parameters ends where RECORD does; its store takes every record. -/
theorem recordIsItsByteSteps : Obligations.RecordIsItsByteSteps := by
  unfold Obligations.RecordIsItsByteSteps
  intro s c l d hr hst hfld hri hturns hlen hprefix
  obtain ⟨tail, htail⟩ := List.isPrefixOf_iff_prefix.1 hprefix
  rw [run_core_eq, exec_eq_execWith, execRecordWith_of hr hst hfld hri hlen htail.symm, State.store_hardware]
  have hrun := (parserRun_record (P := Config.hardware) (r := ⟨c, l, d⟩) ⟨hr, hturns⟩ rfl hst hfld hri
    (Record.wf_iff.2 hlen) rfl htail.symm).run
  rwa [encRecord_length, hlen] at hrun

end Sys2Proof.Machine

end

/-! # The Header Decoder: its byte steps, and the bytes a failed decode consumed (41_header_decoder)

PROOFS of the statements about one byte of each header field (R151 to R153), about the byte that the invariant keeps ready
for it (R150, R159), and about the bytes that a decode which fails has consumed (R196, R197). -/

section

namespace Sys2Proof.Machine

open Sys2Proof

/-! ## One byte of a header field -/

/-- A consuming step in each outcome of its read (R66, R137). -/
theorem State.consume_outcomes (s : State) (e : Err) (deliver : Byte → State → State) :
    (∀ b bs, s.buf = b :: bs → s.consume e deliver = .next (deliver b s.take)) ∧
    (s.buf = [] → s.term = .eos → s.consume e deliver = .next (s.fail e)) ∧
    (∀ c, s.buf = [] → s.term = .ioErr c → s.consume e deliver = .next (s.fail (.ioError c))) ∧
    (s.buf = [] → s.term = .opened → s.consume e deliver = .next s) := by
  unfold State.consume
  refine ⟨fun b bs hb => ?byte, fun hb ht => ?short, fun c hb ht => ?ioFail, fun hb ht => ?wait⟩
  case byte => rw [State.readByteOutcome_byte.2 (show s.buf = b :: s.buf.tail by simp [hb])]
  case short => rw [State.readByteOutcome_short.2 ⟨hb, ht⟩]
  case ioFail => rw [State.readByteOutcome_ioFail.2 ⟨hb, ht⟩]
  case wait => rw [State.readByteOutcome_wait.2 ⟨hb, ht⟩]

/-- A step that reads a `w`-byte integer field: accumulate, hand over on the last byte, fail or wait (R94, R137). -/
theorem State.consume_deliverInt_outcomes (s : State) (e : Err) (w : Nat) (fin : U32 → State → State) :
    (∀ b bs, s.buf = b :: bs → s.cnt.toNat + 1 < w → s.consume e (State.deliverInt w fin) =
      .next { s with buf := bs, pos := s.pos + 1, acc := s.accWith b, cnt := s.cnt + 1 }) ∧
    (∀ b bs, s.buf = b :: bs → w ≤ s.cnt.toNat + 1 → s.consume e (State.deliverInt w fin) =
      .next { fin (s.accWith b) { s with buf := bs, pos := s.pos + 1 } with acc := 0, cnt := 0 }) ∧
    (s.buf = [] → s.term = .eos → s.consume e (State.deliverInt w fin) = .next (s.fail e)) ∧
    (∀ c, s.buf = [] → s.term = .ioErr c → s.consume e (State.deliverInt w fin) = .next (s.fail (.ioError c))) ∧
    (s.buf = [] → s.term = .opened → s.consume e (State.deliverInt w fin) = .next s) := by
  obtain ⟨hbyte, hend⟩ := s.consume_outcomes e (State.deliverInt w fin)
  have htake : ∀ {b bs}, s.buf = b :: bs → s.take = { s with buf := bs, pos := s.pos + 1 } := fun hb => by
    rw [State.take, hb, List.tail_cons]
  refine ⟨fun b bs hb hlt => ?more, fun b bs hb hle => ?last, hend⟩
  case more =>
    rw [hbyte b bs hb, htake hb]
    exact congrArg _ (if_pos hlt)
  case last =>
    rw [hbyte b bs hb, htake hb]
    exact congrArg _ (if_neg (Nat.not_lt.2 hle))

/-- Settles O19: HDR.VERSION reads a 2-byte field into VER. -/
theorem hdrVersionStep : Obligations.HdrVersionStep := by
  unfold Obligations.HdrVersionStep
  intro s hr hst hfld
  rw [exec, execHdrVersion, State.guarded_of hr ⟨hst, hfld⟩]
  exact ⟨(decode_step_always (by decide)).2 (State.cw_eq_iff.2 ⟨hst, hfld⟩), s.consume_deliverInt_outcomes _ 2 _⟩

/-- Settles O20: HDR.DEVICEID reads a 4-byte field into DEV. -/
theorem hdrDeviceIdStep : Obligations.HdrDeviceIdStep := by
  unfold Obligations.HdrDeviceIdStep
  intro s hr hst hfld
  rw [exec, execHdrDeviceId, State.guarded_of hr ⟨hst, hfld⟩]
  exact ⟨(decode_step_always (by decide)).2 (State.cw_eq_iff.2 ⟨hst, hfld⟩), s.consume_deliverInt_outcomes _ 4 _⟩

/-- Settles O21: HDR.PAYLOADLEN reads a 2-byte field into PLEN and leaves HDR_DEC. -/
theorem hdrPayloadLenStep : Obligations.HdrPayloadLenStep := by
  unfold Obligations.HdrPayloadLenStep
  intro s hr hst hfld
  rw [exec, execHdrPayloadLen, State.guarded_of hr ⟨hst, hfld⟩]
  exact ⟨(decode_step_always (by decide)).2 (State.cw_eq_iff.2 ⟨hst, hfld⟩), s.consume_deliverInt_outcomes _ 2 _⟩

/-! ## The byte that is always there (R159) -/

/-- In HDR_DEC a byte of the header is still to come, and it is buffered (R159). -/
theorem State.Inv.exists_buf_cons_of_hdrDec {P : Params} {s : State} (h : s.Inv P) (hst : s.st = .hdrDec) :
    ∃ b bs, s.buf = b :: bs := by
  obtain ⟨hfld, hcnt⟩ := h.hdrFld hst
  have hleft : 0 < s.headerLeft := by
    obtain hfld | hfld | hfld := hfld <;> simp only [State.headerLeft, State.fieldWidth, hfld] at hcnt ⊢ <;> omega
  exact List.exists_cons_of_length_pos (hleft.trans_le (h.hdrBuffered hst))

/-- What a header field is put into: not the reader, and not FAILED. -/
structure StaysDecoding (fin : U32 → State → State) : Prop where
  pos : ∀ v u, (fin v u).pos = u.pos
  buf : ∀ v u, (fin v u).buf = u.buf
  st : ∀ v u, u.st = .hdrDec → (fin v u).st ≠ .failed

/-- A header step takes the buffered byte and does not fail, whether the byte is the last of its field or not. -/
theorem exec_takes_byte_of_delivers {s : State} {w : Nat} {fin : U32 → State → State} {b : Byte} {bs : List Byte}
    (hd : Delivers Config.hardware s (State.deliverInt w fin)) (hfin : StaysDecoding fin) (hst : s.st = .hdrDec)
    (hb : s.buf = b :: bs) :
    ∃ i t, decode s.parserWord = .ok i [] ∧ exec i s = .next t ∧
      t.pos = s.pos + 1 ∧ t.st ≠ .failed ∧ t.buf = s.buf.tail := by
  obtain ⟨i, e, -, hdec, hex⟩ := hd
  obtain ⟨hbyte, -⟩ := s.consume_outcomes e (State.deliverInt w fin)
  have hstep : exec i s = .next (State.deliverInt w fin b s.take) :=
    ((exec_eq_execWith i s).trans (hex s.buf s.env)).trans (hbyte b bs hb)
  refine ⟨i, _, hdec, hstep, ?_⟩
  obtain ⟨-, hmore⟩ | ⟨-, hlast⟩ := State.deliverInt_cases w fin b s.take
  · rw [hmore]
    exact ⟨rfl, by simp [hst], rfl⟩
  · rw [hlast]
    exact ⟨hfin.pos .., hfin.st _ _ hst, hfin.buf ..⟩

/-- Settles O53: `State.Inv.exists_buf_cons_of_hdrDec` finds the byte that the step of each field takes. -/
theorem headerStepsAlwaysFindAByte : Obligations.HeaderStepsAlwaysFindAByte := by
  unfold Obligations.HeaderStepsAlwaysFindAByte
  intro P s hinv hr hst
  obtain ⟨b, bs, hb⟩ := hinv.exists_buf_cons_of_hdrDec hst
  obtain ⟨hfld | hfld | hfld, -⟩ := hinv.hdrFld hst
  · exact exec_takes_byte_of_delivers (delivers_version hr hst hfld)
      ⟨fun _ _ => rfl, fun _ _ => rfl, fun _ u hu => by simp [hu]⟩ hst hb
  · exact exec_takes_byte_of_delivers (delivers_deviceId hr hst hfld)
      ⟨fun _ _ => rfl, fun _ _ => rfl, fun _ u hu => by simp [hu]⟩ hst hb
  · exact exec_takes_byte_of_delivers (delivers_payloadLen hr hst hfld)
      ⟨fun _ _ => rfl, fun _ _ => rfl, fun _ _ _ => by simp⟩ hst hb

/-! ## The bytes a failed decode consumed (R196, R197) -/

/-- The error of a shortfall among the records: the record's own behind an end of stream, the bare I/O error behind an I/O
failure (R181). -/
def RecordsError (t : Term) (e : Err) : Prop :=
  (t = .eos ∧ ∃ i f, e = .malformedRecord i f) ∨ ∃ c, t = .ioErr c ∧ e = .ioError c

theorem fail1_eq_fail {t : Term} {i : U16} {f : Fld} {e : Err} (h : fail1 t i f = .fail e) : RecordsError t e := by
  cases t with
  | opened => cases h
  | eos => cases h; exact .inl ⟨rfl, i, f, rfl⟩
  | ioErr c => cases h; exact .inr ⟨c, rfl, rfl⟩

theorem consRecord_eq_fail {r : Record} {o : RecordsOutcome} {e : Err} (h : consRecord r o = .fail e) : o = .fail e := by
  cases o <;> cases h
  rfl

/-- The records fail where the bytes of one of them end (R181). -/
theorem decodeRecords_eq_fail {t : Term} {n : Nat} {i : U16} {bs : List Byte} {e : Err}
    (h : decodeRecords t n i bs = .fail e) : RecordsError t e := by
  induction n generalizing i bs with
  | zero => cases h
  | succ n ih =>
    match bs with
    | [] => rw [decodeRecords_nil] at h; exact fail1_eq_fail h
    | [c] | [c, _] => rw [decodeRecords_shortLength c (by simp)] at h; exact fail1_eq_fail h
    | c :: l1 :: l0 :: bs =>
      by_cases hbs : bs.length < (u16 [l1, l0]).toNat
      · rw [decodeRecords_shortData c l1 l0 hbs] at h; exact fail1_eq_fail h
      · rw [decodeRecords_record c l1 l0 (Nat.le_of_not_lt hbs)] at h; exact ih (consRecord_eq_fail h)

theorem frameOf_eq_err {h : Header} {pre : List Record} {n m : Nat} {o : RecordsOutcome} {e : Err}
    (hf : frameOf h pre n o = some (.err e, m)) : o = .fail e ∧ m = n := by
  cases o <;> cases hf
  exact ⟨rfl, rfl⟩

/-- The payload fails at its checkpoint, or among its records (R196). -/
theorem decodePayload_eq_err {P : Params} {t : Term} {h : Header} {bs : List Byte} {e : Err} {m : Nat}
    (hd : decodePayload P t h bs = some (.err e, m)) :
    ((∃ c, e = .dataLengthError c) ∧ m = 0 ∧ bs.length < P.paywin h.payloadLen) ∨
      (RecordsError t e ∧ m = bs.length) := by
  by_cases hlt : bs.length < P.paywin h.payloadLen
  · rw [decodePayload, if_pos hlt] at hd
    obtain ⟨c, -, hc⟩ := Option.map_eq_some_iff.1 hd
    cases hc
    exact .inl ⟨⟨c, rfl⟩, rfl, hlt⟩
  · rw [decodePayload_of_le (Nat.le_of_not_lt hlt)] at hd
    obtain ⟨hfail, hm⟩ := frameOf_eq_err hd
    exact .inr ⟨decodeRecords_eq_fail hfail, hm⟩

/-- Where a decode fails, and what it has consumed there: at the header checkpoint, at the payload checkpoint, or among the
records (R196, R197). -/
theorem decodeFrame_eq_err {P : Params} {t : Term} {bs : List Byte} {e : Err} {n : Nat}
    (hd : decodeFrame P t bs = some (.err e, n)) :
    ((∃ c, e = .headerFormatError c) ∧ n = 0 ∧ bs.length < 8) ∨
      ((∃ c, e = .dataLengthError c) ∧ n = 8 ∧ 8 ≤ bs.length ∧
        bs.length < 8 + P.paywin (u16 ((bs.drop 6).take 2))) ∨
      (RecordsError t e ∧ n = bs.length) := by
  by_cases hlt : bs.length < 8
  · rw [decodeFrame, headerBytes_eq, if_pos hlt] at hd
    obtain ⟨c, -, hc⟩ := Option.map_eq_some_iff.1 hd
    cases hc
    exact .inl ⟨⟨c, rfl⟩, rfl, hlt⟩
  · rw [decodeFrame, headerBytes_eq, if_neg hlt, moreConsumed_eq_some_iff] at hd
    obtain ⟨m, hpay, rfl⟩ := hd
    obtain ⟨he, rfl, hwin⟩ | ⟨he, rfl⟩ := decodePayload_eq_err hpay
    · have hlen : bs.length - 8 < P.paywin (u16 ((bs.drop 6).take 2)) := by rwa [List.length_drop] at hwin
      exact .inr (.inl ⟨he, rfl, Nat.le_of_not_lt hlt, by omega⟩)
    · exact .inr (.inr ⟨he, by rw [List.length_drop]; omega⟩)

/-- Settles O59: the kind of the error tells in which case of `decodeFrame_eq_err` the decode failed; this hardware's
payload checkpoint asks for one byte at most. -/
theorem bytesConsumedByAFailedDecode : Obligations.BytesConsumedByAFailedDecode := by
  unfold Obligations.BytesConsumedByAFailedDecode
  refine ⟨fun P t bs e n hd => ?kinds, fun t bs c n hd => ?hardware⟩
  case kinds =>
    obtain ⟨⟨c, rfl⟩, hn, hlt⟩ | ⟨⟨c, rfl⟩, hn, hle, hlt⟩ | ⟨⟨ht, i, f, rfl⟩ | ⟨c, ht, rfl⟩, hn⟩ := decodeFrame_eq_err hd
    · exact ⟨fun _ _ => ⟨hn, hlt⟩, nofun, nofun, nofun, nofun⟩
    · exact ⟨nofun, fun _ _ => ⟨hn, hle, hlt⟩, nofun, nofun, nofun⟩
    · exact ⟨nofun, nofun, fun _ _ _ => ⟨hn, ht⟩, nofun, nofun⟩
    · refine ⟨nofun, nofun, nofun, fun c' hc => ?_, nofun⟩
      cases hc
      exact ⟨hn, ht⟩
  case hardware =>
    obtain ⟨⟨c', he⟩, -⟩ | ⟨-, -, hle, hlt⟩ | ⟨⟨-, i, f, he⟩ | ⟨c', -, he⟩, -⟩ := decodeFrame_eq_err hd
    · cases he
    · have hwin : Config.hardware.paywin (u16 ((bs.drop 6).take 2)) ≤ 1 := Nat.min_le_right ..
      omega
    · cases he
    · cases he

end Sys2Proof.Machine

end

/-! # The Record Decoder: its byte steps and the commit (42_record_decoder)

PROOFS of the statements about one byte of each record field (R171 to R173) and about the store of a complete record
(R174, R179). -/

section

namespace Sys2Proof.Machine

open Sys2Proof

/-! ## One byte of a record field -/

/-- A consuming step as `State.consume_outcomes` gives it, the reader after the byte spelled out (R65, R137). -/
theorem State.consume_cons_outcomes (s : State) (e : Err) (deliver : Byte → State → State) :
    (∀ b bs, s.buf = b :: bs → s.consume e deliver = .next (deliver b { s with buf := bs, pos := s.pos + 1 })) ∧
    (s.buf = [] → s.term = .eos → s.consume e deliver = .next (s.fail e)) ∧
    (∀ c, s.buf = [] → s.term = .ioErr c → s.consume e deliver = .next (s.fail (.ioError c))) ∧
    (s.buf = [] → s.term = .opened → s.consume e deliver = .next s) := by
  obtain ⟨hbyte, hend⟩ := s.consume_outcomes e deliver
  refine ⟨fun b bs hb => ?_, hend⟩
  rw [hbyte b bs hb, State.take, hb, List.tail_cons]

/-- Settles O22: REC.COMMANDID puts the byte of an owed record into CID. -/
theorem recCommandIdStep : Obligations.RecCommandIdStep := by
  unfold Obligations.RecCommandIdStep
  intro s hr hst hfld hri
  rw [exec, execRecCommandId, State.guarded_of hr ⟨hst, hfld, hri⟩]
  exact ⟨(decode_step_of_word (g := .riLtPlen) (by decide)).2 ⟨State.cw_eq_iff.2 ⟨hst, hfld⟩, decide_eq_true hri⟩,
    s.consume_cons_outcomes _ _⟩

/-- Settles O23: REC.LENGTH reads a 2-byte field into RLEN and empties `dat`. -/
theorem recLengthStep : Obligations.RecLengthStep := by
  unfold Obligations.RecLengthStep
  intro s hr hst hfld
  rw [exec, execRecLength, State.guarded_of hr ⟨hst, hfld⟩]
  exact ⟨(decode_step_always (by decide)).2 (State.cw_eq_iff.2 ⟨hst, hfld⟩), s.consume_deliverInt_outcomes _ 2 _⟩

/-- Settles O24: REC.DATA appends the byte to `dat` as it is. -/
theorem recDataStep : Obligations.RecDataStep := by
  unfold Obligations.RecDataStep
  intro s hr hst hfld hcnt
  rw [exec, execRecData, State.guarded_of hr ⟨hst, hfld, hcnt⟩]
  exact ⟨(decode_step_of_word (g := .cntLtRlen) (by decide)).2 ⟨State.cw_eq_iff.2 ⟨hst, hfld⟩, decide_eq_true hcnt⟩,
    s.consume_cons_outcomes _ _⟩

/-! ## The commit of a complete record -/

/-- A store that takes the record commits it, whatever `buf` and `term` are (R174). -/
theorem execWith_recCommit_of_fits {P : Params} {s : State} (hr : s.rstSeen = true)
    (hguard : s.st = .payDec ∧ s.fld = .data ∧ s.cnt = s.rlen) (hfits : P.fits s.recs.length s.rlen = true) :
    execWith P .recCommit s = .next (s.commit ⟨s.cid, s.rlen, s.dat⟩) := by
  rw [execWith_recCommit hr hguard]
  exact if_pos hfits

/-- Settles O25: this hardware's store takes every record, and by `Params.Legal.fits` one that meets R6 takes all that a
frame can have. -/
theorem recCommitStores : Obligations.RecCommitStores := by
  unfold Obligations.RecCommitStores
  intro s hr hst hfld hcnt
  have hcommit : exec .recCommit s = .next (s.commit ⟨s.cid, s.rlen, s.dat⟩) := by
    rw [exec_eq_execWith, execWith_recCommit_of_fits hr ⟨hst, hfld, hcnt⟩ (hardware_fits ..)]
  refine ⟨?decodes, hcommit, fun P hP hn => ?legal⟩
  case decodes =>
    exact (decode_step_of_word (g := .cntEqRlen) (by decide)).2 ⟨State.cw_eq_iff.2 ⟨hst, hfld⟩, beq_iff_eq.2 hcnt⟩
  case legal => rw [hcommit, execWith_recCommit_of_fits hr ⟨hst, hfld, hcnt⟩ (hP.fits hn _)]

end Sys2Proof.Machine

end

/-! # The Frame Assembler: the transition table, the standing result, the published frame (43_frame_assembler)

PROOFS of the statements about the rows of the transition table (R191), the step ASSEMBLE (R192), and the result that
stands in DONE and FAILED (R193, R194). -/

section

namespace Sys2Proof.Machine

open Sys2Proof

/-! ## The transition table -/

/-- Outside the four states of a decode under way `st` is IDLE, DONE or FAILED (R32). -/
theorem State.st_of_not_busy {s : State} (h : s.busy = false) : s.st = .idle ∨ s.st = .done ∨ s.st = .failed := by
  unfold State.busy at h
  split at h <;> simp_all

/-- What a failure asks of the terminator, carried over to the error that it records (R191, R250). -/
theorem State.fail_err_of_closed {α : Type} {s : State} {x y : α} {g : IoCode → α} (f : α → Err)
    (h : s.term = .eos ∧ x = y ∨ ∃ c, s.term = .ioErr c ∧ x = g c) :
    s.term = .eos ∧ (s.fail (f x)).err = some (f y) ∨ ∃ c, s.term = .ioErr c ∧ (s.fail (f x)).err = some (f (g c)) := by
  obtain ⟨ht, rfl⟩ | ⟨c, ht, rfl⟩ := h
  · exact .inl ⟨ht, rfl⟩
  · exact .inr ⟨c, ht, rfl⟩

/-- A step that reads a field is one of the Header Decoder or of the Record Decoder, and a short read is recorded by which
(R137, R191). -/
theorem readsField.decoder {s : State} {i : Instr} (hi : readsField s i) :
    s.st = .hdrDec ∧ (i = .hdrVersion ∨ i = .hdrDeviceId ∨ i = .hdrPayloadLen) ∧ shortErr s = .malformedHeader s.fld ∨
      s.st = .payDec ∧ (i = .recCommandId ∨ i = .recLength ∨ i = .recData) ∧
        shortErr s = .malformedRecord s.ri s.fld := by
  obtain ⟨hst, hstep⟩ | ⟨hst, hstep⟩ := hi
  · exact .inl ⟨hst, hstep.imp And.left (Or.imp And.left And.left), if_pos hst⟩
  · exact .inr ⟨hst, hstep.imp And.left (Or.imp And.left And.left), if_neg (by simp [hst])⟩

/-- Settles O49: each effect keeps `st` or is in one row of the table, in the order of R191. -/
theorem transitionsOfTheTable : Obligations.TransitionsOfTheTable := by
  unfold Obligations.TransitionsOfTheTable
  intro i s t h hne
  cases exec_effect h with
  | reset => exact .inl ⟨rfl, rfl⟩
  | start w hw hbusy => exact .inr (.inl ⟨w, rfl, hw, State.st_of_not_busy hbusy, rfl⟩)
  | peekHdr hst hbuf => exact .inr (.inr (.inl ⟨rfl, hst, rfl, hbuf⟩))
  | peekHdrFail c hst hbuf hc =>
    exact .inr (.inr (.inr (.inl ⟨rfl, hst, rfl, hbuf, State.fail_err_of_closed .headerFormatError hc⟩)))
  | hdrPayloadLen b bs hst hfld hb hlast =>
    exact .inr (.inr (.inr (.inr (.inl ⟨.inl ⟨rfl, hfld, by simp [hb], hlast⟩, hst, rfl⟩))))
  | headerPayloadLen p hg hbytes =>
    obtain ⟨hst, hfld, hcnt⟩ := hg
    exact .inr (.inr (.inr (.inr (.inl ⟨.inr (.inl ⟨p, rfl, hfld, hcnt, hbytes⟩), hst, rfl⟩))))
  | header v d p hg hbytes =>
    obtain ⟨hst, hfld, hcnt⟩ := hg
    exact .inr (.inr (.inr (.inr (.inl ⟨.inr (.inr ⟨v, d, p, rfl, hfld, hcnt, hbytes⟩), hst, rfl⟩))))
  | readFail i e hi hb he =>
    have herr := State.fail_err_of_closed id he
    obtain ⟨hst, hstep, hshort⟩ | ⟨hst, hstep, hshort⟩ := hi.decoder
    · rw [hshort] at herr
      exact .inr (.inr (.inr (.inr (.inr (.inl ⟨hstep, hst, rfl, hb, herr⟩)))))
    · rw [hshort] at herr
      exact .inr (.inr (.inr (.inr (.inr (.inr (.inr (.inr (.inl ⟨hstep, hst, rfl, hb, herr⟩))))))))
  | peekPay hst hbuf => exact .inr (.inr (.inr (.inr (.inr (.inr (.inl ⟨rfl, hst, rfl, hbuf⟩))))))
  | peekPayFail c hst hbuf hc =>
    exact .inr (.inr (.inr (.inr (.inr (.inr (.inr (.inl
      ⟨rfl, hst, rfl, hbuf, State.fail_err_of_closed .dataLengthError hc⟩)))))))
  | assemble hst hfld hri =>
    exact .inr (.inr (.inr (.inr (.inr (.inr (.inr (.inr (.inr ⟨rfl, hst, rfl, hfld, hri⟩))))))))
  | _ => exact absurd rfl hne

/-! ## The result that stands -/

/-- A field is read by a decode under way. -/
theorem readsField.busy {s : State} {i : Instr} (hi : readsField s i) : s.busy = true := by
  obtain ⟨hst, -⟩ | ⟨hst, -⟩ := hi <;> simp [State.busy, hst]

/-- With no decode under way, only START and RESET reach beyond the reader's input and HOST's side: every operation of PARSER
stands under a busy state (R100, R193, R194). -/
theorem Effect.eq_withOthers_of_not_busy {P : Params} {s t : State} {i : Instr} (he : Effect P s i t)
    (hi : beginsAnew i = false) (hbusy : s.busy = false) :
    ∃ bs u a b e, t = { s with buf := bs, term := u, recSel := a, recOff := b, env := e } := by
  cases he with
  | same | srcData | srcEos | srcErr | recSel | recOff | read => exact ⟨_, _, _, _, _, rfl⟩
  | start | reset => cases hi
  | readFail _ _ hread | accumulate _ _ _ hread => simp [hread.busy] at hbusy
  | header _ _ _ hst | headerVersion _ hst | headerDeviceId _ hst | headerPayloadLen _ hst | record _ _ _ hst
  | recordCommandId _ hst | recordLength _ hst | recordData _ hst | peekHdr hst | peekHdrFail _ hst | peekPay hst
  | peekPayFail _ hst | hdrVersion _ _ hst | hdrDeviceId _ _ hst | hdrPayloadLen _ _ hst | recCommandId _ _ hst
  | recLength _ _ hst | recData _ _ hst | recCommit hst | assemble hst => simp [State.busy, hst] at hbusy

/-- Settles O51: no decode is under way in DONE and FAILED, and the result reads nothing that may still change there. -/
theorem resultStandsUntilRestart : Obligations.ResultStandsUntilRestart := by
  unfold Obligations.ResultStandsUntilRestart
  intro i s t hi hst h
  have hbusy : s.busy = false := by obtain hst | hst := hst <;> simp [State.busy, hst]
  obtain ⟨bs, u, a, b, e, rfl⟩ := (exec_effect h).eq_withOthers_of_not_busy hi hbusy
  exact ⟨rfl, rfl, rfl, rfl, rfl, rfl, rfl, rfl⟩

/-! ## The published frame -/

/-- Settles O26: ASSEMBLE runs under its guard, and DONE's result is the frame of the registers. -/
theorem assemblePublishes : Obligations.AssemblePublishes := by
  unfold Obligations.AssemblePublishes
  intro s hr hst hfld hri
  refine ⟨?decodes, State.guarded_of hr ⟨hst, hfld, hri⟩ _, if_pos hr⟩
  case decodes =>
    exact (decode_step_of_word (g := .riEqPlen) (by decide)).2 ⟨State.cw_eq_iff.2 ⟨hst, hfld⟩, beq_iff_eq.2 hri⟩

end Sys2Proof.Machine

end

/-! # The host interface: START, the register writes, what the registers show, the two pointers (44_host_interface)

PROOFS of the statements about HOST's operations: START and what it forgets, the writes by number, the frame of the register
accesses, the registers as a function of the result, and that PARSER does not read HOST's pointers. -/

section

namespace Sys2Proof.Machine

open Sys2Proof

/-! ## The registers and the result (R226) -/

section Result

variable {s t : State}

theorem State.result_of_done (hr : s.rstSeen = true) (hst : s.st = .done) :
    s.result = some (.ok ⟨⟨s.ver, s.dev, s.plen⟩, s.recs⟩) := by
  simp [State.result, hr, hst]

theorem State.result_of_failed (hr : s.rstSeen = true) (hst : s.st = .failed) : s.result = s.err.map Result.err := by
  simp [State.result, hr, hst]

theorem State.result_of_unfinished (hdone : s.st ≠ .done) (hfailed : s.st ≠ .failed) : s.result = none := by
  cases hst : s.st with
  | done => exact absurd hst hdone
  | failed => exact absurd hst hfailed
  | _ => simp [State.result, hst]

/-- In DONE the result holds the whole frame. -/
theorem State.frame_eq_of_result_eq (hs : s.rstSeen = true) (ht : t.rstSeen = true) (hres : s.result = t.result)
    (hst : s.st = t.st) (hdone : s.st = .done) :
    s.ver = t.ver ∧ s.dev = t.dev ∧ s.plen = t.plen ∧ s.recs = t.recs := by
  rw [State.result_of_done hs hdone, State.result_of_done ht (hst ▸ hdone)] at hres
  simpa [and_assoc] using hres

/-- ERR shows the result's error in FAILED, and 0 elsewhere (R36). -/
theorem State.errImage_eq_of_result_eq (hs : s.rstSeen = true) (ht : t.rstSeen = true) (hres : s.result = t.result)
    (hst : s.st = t.st) : s.errImage = t.errImage := by
  by_cases hfailed : s.st = .failed
  · rw [State.result_of_failed hs hfailed, State.result_of_failed ht (hst ▸ hfailed)] at hres
    have herr : s.err = t.err := Option.map_injective (fun _ _ => Result.err.inj) hres
    rw [State.errImage, State.errImage, hst, herr]
  · rw [State.errImage_eq_zero hfailed, State.errImage_eq_zero (hst ▸ hfailed)]

/-- STATUS shows `st` and `term` alone (R35). -/
theorem State.statusImage_congr (hst : s.st = t.st) (hterm : s.term = t.term) : s.statusImage = t.statusImage := by
  simp only [State.statusImage, State.isFailed, State.isDone, State.busy, hst, hterm]

end Result

/-- Settles O40: STATUS and ERR agree, the pointers stand in the hypotheses, and the other registers show the frame in DONE
and 0 elsewhere. -/
theorem registersShowOnlyTheResult : Obligations.RegistersShowOnlyTheResult := by
  unfold Obligations.RegistersShowOnlyTheResult
  refine ⟨fun s hr => ⟨State.result_of_unfinished, State.result_of_done hr, fun e hst he => ?failed⟩,
    fun s t n hs ht hres hst hterm hsel hoff => ?registers⟩
  case failed => rw [State.result_of_failed hr hst, he, Option.map_some]
  case registers =>
    have hstatus := State.statusImage_congr hst hterm
    have herr := State.errImage_eq_of_result_eq hs ht hres hst
    by_cases hdone : s.st = .done
    · obtain ⟨hver, hdev, hplen, hrecs⟩ := State.frame_eq_of_result_eq hs ht hres hst hdone
      simp only [State.regRead, State.selected, hstatus, herr, hst, hver, hdev, hplen, hrecs, hsel, hoff]
    · have hdone' : t.st ≠ .done := hst ▸ hdone
      simp only [State.regRead, State.selected, hstatus, herr, if_neg hdone, if_neg hdone', hsel, hoff]

/-! ## The frame of a register access (R222, R223) -/

/-- HOST's operations but START and RESET: a dropped access, a pointer write or a register read. -/
theorem Effect.access_cases {P : Params} {s t : State} {i : Instr} (he : Effect P s i t) (hi : instrFormat i = .host)
    (hnew : beginsAnew i = false) :
    t = s ∨ (∃ w, i = .wrregRecSel w ∧ t = { s with recSel := w.setWidth 16 }) ∨
      (∃ w, i = .wrregRecOff w ∧ t = { s with recOff := w.setWidth 16 }) ∨
      ((∀ w, i ≠ .wrregRecSel w ∧ i ≠ .wrregRecOff w) ∧ ∃ v, t = s.setRdata v) := by
  cases he with
  | same => exact .inl rfl
  | recSel w => exact .inr (.inl ⟨w, rfl, rfl⟩)
  | recOff w => exact .inr (.inr (.inl ⟨w, rfl, rfl⟩))
  | read i n _ _ _ hsel hoff => exact .inr (.inr (.inr ⟨fun w => ⟨hsel w, hoff w⟩, _, rfl⟩))
  | start | reset => cases hnew
  | readFail i e hr => simp [hr.format_eq] at hi
  | accumulate i b bs hr => simp [hr.format_eq] at hi
  | _ => cases hi

/-- Settles O43: the four cases of `Effect.access_cases`. -/
theorem hostAccessFrame : Obligations.HostAccessFrame := by
  unfold Obligations.HostAccessFrame
  intro i s t hi hnew h
  obtain rfl | ⟨w, rfl, rfl⟩ | ⟨w, rfl, rfl⟩ | ⟨hne, v, rfl⟩ := (exec_effect h).access_cases hi hnew
  · exact ⟨rfl, fun _ => rfl, fun _ => rfl, fun _ _ => rfl⟩
  · exact ⟨rfl, fun hne => absurd rfl (hne w), fun _ => rfl, fun _ _ => rfl⟩
  · exact ⟨rfl, fun _ => rfl, fun hne => absurd rfl (hne w), fun _ _ => rfl⟩
  · refine ⟨rfl, fun _ => rfl, fun _ => rfl, fun w hw => ?_⟩
    obtain ⟨hsel, hoff⟩ := hne w
    exact absurd hw (not_or.2 ⟨hsel, hoff⟩)

/-! ## PARSER does not read the pointers (R223)

Every operation of PARSER is one of the model's templates; each template runs the same with other pointers. -/

section Pointers

variable {s t : State} {a b : U16}

/-- The state with other pointers (R31). -/
def State.withPointers (a b : U16) (s : State) : State := { s with recSel := a, recOff := b }

/-- `k'` is what `k` becomes with other pointers: it answers the same next state with these. -/
def Follows (a b : U16) (k k' : Out) : Prop := ∀ t, k = .next t → k' = .next (t.withPointers a b)

theorem follows_next : Follows a b (.next t) (.next (t.withPointers a b)) := by
  rintro _ ⟨⟩; rfl

/-- The two guards do not look at the pointers when their condition does not. -/
theorem follows_guarded {p : Prop} [Decidable p] {k k' : Out} (hk : Follows a b k k') :
    Follows a b (s.whenReset (s.when p k)) ((s.withPointers a b).whenReset ((s.withPointers a b).when p k')) := by
  intro t h
  obtain ⟨hr, h⟩ := State.whenReset_next.1 h
  refine State.whenReset_next.2 ⟨hr, State.when_next.2 ?_⟩
  obtain ⟨hp, h⟩ | ⟨hp, rfl⟩ := State.when_next.1 h
  · exact .inl ⟨hp, hk t h⟩
  · exact .inr ⟨hp, rfl⟩

/-- A consuming step whose last part keeps the pointers (R137). -/
theorem follows_consume (e : Err) {deliver : Byte → State → State}
    (hd : ∀ c u, deliver c (u.withPointers a b) = (deliver c u).withPointers a b) :
    Follows a b (s.consume e deliver) ((s.withPointers a b).consume e deliver) := by
  have hread : (s.withPointers a b).readByteOutcome = s.readByteOutcome := rfl
  unfold State.consume
  rw [hread]
  split
  case h_1 c =>
    rw [show (s.withPointers a b).take = s.take.withPointers a b from rfl, hd]
    exact follows_next
  all_goals exact follows_next

/-- A byte of an integer field keeps the pointers when the field's destination does (R94). -/
theorem deliverInt_withPointers {fin : U32 → State → State}
    (hfin : ∀ v u, fin v (u.withPointers a b) = (fin v u).withPointers a b) (w : Nat) (c : Byte) (u : State) :
    State.deliverInt w fin c (u.withPointers a b) = (State.deliverInt w fin c u).withPointers a b := by
  have hcnt : (u.withPointers a b).cnt = u.cnt := rfl
  have hacc : (u.withPointers a b).accWith c = u.accWith c := rfl
  unfold State.deliverInt
  rw [hcnt, hacc, hfin]
  split <;> rfl

/-- A checkpoint that proceeds to a state with the same pointers (R134, R135). -/
theorem follows_checkpoint (n : Nat) (wrap : Cause → Err) {proceed : State → State}
    (hp : proceed (s.withPointers a b) = (proceed s).withPointers a b) :
    Follows a b (s.checkpoint n wrap proceed) ((s.withPointers a b).checkpoint n wrap proceed) := by
  have hpeek : (s.withPointers a b).peekOutcome n = s.peekOutcome n := rfl
  unfold State.checkpoint
  rw [hpeek, hp]
  split <;> exact follows_next

/-- PARSER's operations and the wire items run the same with other pointers. -/
theorem follows_exec {i : Instr} (hi : isParserInstr i = true) (s : State) (a b : U16) :
    Follows a b (exec i s) (exec i (s.withPointers a b)) := by
  cases i with
  | header | headerVersion | headerDeviceId | headerPayloadLen | record | recordCommandId | recordLength | recordData
  | recCommit | assemble => exact follows_guarded (follows_next)
  | peekHdr | peekPay => exact follows_guarded (follows_checkpoint _ _ rfl)
  | hdrVersion | hdrDeviceId | hdrPayloadLen | recLength =>
    exact follows_guarded (follows_consume _ (deliverInt_withPointers (by intros; rfl) _))
  | recCommandId | recData => exact follows_guarded (follows_consume _ fun _ _ => rfl)
  | _ => cases hi

end Pointers

/-- Settles O54: `follows_exec`. -/
theorem parserIgnoresPointers : Obligations.ParserIgnoresPointers := by
  unfold Obligations.ParserIgnoresPointers
  exact fun i s t a b hi h => follows_exec hi s a b t h

/-! ## START -/

/-- The state START leaves depends on the reader, on the reset bit and on the agents alone (R220). -/
theorem State.beginDecode_congr {s t : State} (hr : s.rstSeen = t.rstSeen) (hbuf : s.buf = t.buf) (hterm : s.term = t.term)
    (hpos : s.pos = t.pos) (henv : s.env = t.env) : s.beginDecode = t.beginDecode := by
  simp only [State.beginDecode, hr, hbuf, hterm, hpos, henv]

/-- Bit 0 is all that START reads of the value written (R34). -/
theorem exec_start_congr {w v : U32} (h : w.getLsbD 0 = v.getLsbD 0) (s : State) :
    exec (.start w) s = exec (.start v) s := by
  simp only [exec, execStart, h]

/-- Settles O32: START's guard is met in the three states that are not busy, and fails in the four that are. -/
theorem startBeginsADecode : Obligations.StartBeginsADecode := by
  unfold Obligations.StartBeginsADecode
  refine fun s w hr hw => ⟨rfl, fun hst => ?begins, fun hst => ?dropped⟩
  case begins =>
    have hbusy : s.busy = false := by obtain hst | hst | hst := hst <;> simp [State.busy, hst]
    exact State.guarded_of hr ⟨hw, hbusy⟩ _
  case dropped =>
    exact State.guarded_not hr (by simp [State.busy_iff.2 hst]) _

/-- Settles O55: START runs in both states and leaves the same, or neither was ever reset. -/
theorem startForgetsTheLastDecode : Obligations.StartForgetsTheLastDecode := by
  unfold Obligations.StartForgetsTheLastDecode
  intro s t w hw hs ht hrst hbuf hterm hpos henv
  cases hr : s.rstSeen with
  | true =>
    calc exec (.start w) s
      _ = .next s.beginDecode := State.guarded_of hr ⟨hw, hs⟩ _
      _ = .next t.beginDecode := by rw [State.beginDecode_congr hrst hbuf hterm hpos henv]
      _ = exec (.start w) t := (State.guarded_of (hrst ▸ hr) ⟨hw, ht⟩ _).symm
  | false =>
    exact (State.whenReset_not hr _).trans (State.whenReset_not (hrst ▸ hr) _).symm

/-! ## The register writes -/

/-- A write to a number other than 0, 7 and 10 has no operation (R223). -/
theorem decodeWrite_unlisted {n : BitVec 4} (h0 : n ≠ 0) (h7 : n ≠ 7) (h10 : n ≠ 10) (w : U32) :
    decodeWrite n w = .reject .unlistedWrite := by
  unfold decodeWrite
  split
  case h_1 h => exact absurd (BitVec.eq_of_toNat_eq h) h0
  case h_2 h => exact absurd (BitVec.eq_of_toNat_eq h) h7
  case h_3 h => exact absurd (BitVec.eq_of_toNat_eq h) h10
  case h_4 => rfl

/-- Settles O33: `exec_start_congr` for CTRL, `decodeWrite_unlisted` for the numbers without a row. -/
theorem writeRegisterByNumber : Obligations.WriteRegisterByNumber := by
  unfold Obligations.WriteRegisterByNumber
  intro s w hr
  refine ⟨rfl, fun hw => State.guarded_not hr (fun ⟨h, _⟩ => absurd (hw.symm.trans h) Bool.false_ne_true) _,
    fun hw => exec_start_congr hw s, rfl, State.whenReset_of hr _, rfl, State.whenReset_of hr _,
    fun n h0 h7 h10 => ?unlisted⟩
  case unlisted =>
    have hd : decode (.host true n w) = .reject .unlistedWrite := decodeWrite_unlisted h0 h7 h10 w
    exact ⟨hd, fun ts qs ht hh =>
      turnStep_of_reject ht (by simp [State.wordFor, hh, hostWord]) hd (State.spend_host_of_cons ht hh)⟩

end Sys2Proof.Machine

end

/-! # Exceptions: the entry to FAILED (60_exceptions)

PROOFS of the statement about what a step that enters FAILED changes, and that PARSER stands still there (R250, R251). -/

section

namespace Sys2Proof.Machine

open Sys2Proof

/-- FAILED is entered by `State.fail` alone; every other effect keeps `st` or sets a state that is not FAILED (R250). -/
theorem Effect.eq_fail_of_enters_failed {P : Params} {s t : State} {i : Instr} (he : Effect P s i t)
    (hs : s.st ≠ .failed) (ht : t.st = .failed) : ∃ e, t = s.fail e := by
  cases he with
  | peekHdrFail | peekPayFail | readFail => exact ⟨_, rfl⟩
  | header | headerPayloadLen | hdrPayloadLen | peekHdr | peekPay | assemble | start | reset => cases ht
  | _ => exact absurd ht hs

/-- PARSER has no step in FAILED: whatever `fld` is, the control word carries FAILED's code (R100, R250). -/
theorem decode_step_of_failed {s : State} (hst : s.st = .failed) (ri plen cnt rlen : U16) :
    decode (.step s.cw ri plen cnt rlen) = .reject .noParserStep := by
  have hcode : s.cw >>> 3 = 6 := by
    rw [State.cw, hst]
    cases s.fld <;> rfl
  exact decode_step_noParserStep (.inr (.inr hcode))

/-- Settles O50: `Effect.eq_fail_of_enters_failed` on every effect, and `decode_step_of_failed` on the next state. -/
theorem failureEntryIsPrecise : Obligations.FailureEntryIsPrecise := by
  unfold Obligations.FailureEntryIsPrecise
  intro i s t h hs ht
  exact ⟨(exec_effect h).eq_fail_of_enters_failed hs ht, decode_step_of_failed ht t.ri t.plen t.cnt t.rlen⟩

end Sys2Proof.Machine

end
